-- ==== Sys2Proof/Word.lean ====
section
/-! DEFINITION. The word types of the machine (10_state.md R20, R25, R29, R31; 00_scope.md R8). -/

namespace Sys2Proof

/-- One byte of an instruction or of memory. -/
abbrev Byte := BitVec 8

/-- One 64-bit element of a vector (00_scope.md R9), a double-precision datum (R11). -/
abbrev Elem := BitVec 64

/-- The storage of one vector register: 512 bits, of which `MAX_VL` exist (10_state.md R20). -/
abbrev Vec := BitVec 512

/-- A 64-bit register or address (10_state.md R29, R31). -/
abbrev Word64 := BitVec 64

end Sys2Proof
end

