-- ==== Sys2Proof/Config.lean ====
section
/-! DEFINITION. What the spec leaves open at each step: its three draws (92_eei_decisions.md, "Draws in one
place") and the class of a memory fault (D10). Each is a constant with no body, applied to the model's own draw
counter `State.draws`, so that nothing can be proved of its value. The parameters of 00_scope.md R7 are fields of
`State`, not constants: a claim quantifies over them. -/

namespace Sys2Proof

/-- The classes of a memory fault (20_memory.md R55; 60_exceptions.md R161). -/
inductive MemoryFaultClass where
  /-- #SS(0), vector 12. -/
  | ss
  /-- #GP(0), vector 13. -/
  | gp
  /-- #PF(code), vector 14. -/
  | pf
  /-- #AC(0), vector 17. -/
  | ac
  deriving DecidableEq, Repr, Inhabited

/-- DESIGN CHOICE (safe, log entry 7). The sign and the 51 payload bits of the QNaN that a NaN operand gives, by draw
number and element (40_fnmsub_lane.md R108, D18). -/
opaque Config.nanBits : Nat → Nat → BitVec 52

/-- DESIGN CHOICE (safe, log entry 8). Which of the detected flags an unmasked floating-point exception leaves set
(60_exceptions.md R162, D23). -/
opaque Config.faultFlags : Nat → BitVec 6

/-- DESIGN CHOICE (safe, log entry 9). Whether a misaligned full-width operand raises #AC when alignment checking is
active (20_memory.md R44, D7). -/
opaque Config.alignmentFaults : Nat → Bool

/-- DESIGN CHOICE (safe, log entry 10). Which class a memory fault has (20_memory.md R55, D10). -/
opaque Config.memoryFaultClass : Nat → MemoryFaultClass

end Sys2Proof
end

