-- ==== Sys2Proof/Syntax.lean ====
section
/-! DEFINITION. The fifteen encoded forms of VFNMSUB132PD, VFNMSUB213PD and VFNMSUB231PD (30_encoding.md R60, R89),
with every operand form of R68, R74, R75 and R76. A term keeps what decides the length of the encoding (the segment
override, the SIB byte, the size of the displacement), because a step advances `pc` by that length (R79). Bits that
the rules ignore (VEX `X̄` with a register operand, R71) are not kept. -/

namespace Sys2Proof

/-- The segment named by a segment-override byte (30_encoding.md R61): 26, 2E, 36, 3E, 64, 65. -/
inductive Seg where
  | es | cs | ss | ds | fs | gs
  deriving DecidableEq, Repr

/-- The displacement of a memory operand with a base register (30_encoding.md R76). -/
inductive Disp where
  /-- `mod = 00`. -/
  | none
  /-- `mod = 01`: eight bits, scaled under EVEX (R78). -/
  | d8 (b : BitVec 8)
  /-- `mod = 10`: thirty-two bits, never scaled. -/
  | d32 (w : BitVec 32)
  deriving DecidableEq, Repr

/-- The address forms of 30_encoding.md R76. Register numbers are the four-bit numbers `B ++ rm`, `X ++ index`,
`B ++ base`. -/
inductive Addr where
  /-- A base register named by ModRM.rm. -/
  | based (base : BitVec 4) (d : Disp)
  /-- `mod = 00`, `rm = 101`: relative to the next instruction in `Long64`, absolute in `Prot32`. -/
  | relative (d : BitVec 32)
  /-- A SIB byte with a base register; index number 4 means no index. -/
  | sib (scale : BitVec 2) (index base : BitVec 4) (d : Disp)
  /-- A SIB byte with `mod = 00` and `base = 101`: no base register, a 32-bit displacement. -/
  | sibNoBase (scale : BitVec 2) (index : BitVec 4) (d : BitVec 32)
  deriving DecidableEq, Repr

/-- Operand 3 of a VEX form: `xmm3/m128` or `ymm3/m256`. -/
inductive VexOperand where
  | reg (r : BitVec 4)
  | mem (a : Addr)
  deriving DecidableEq, Repr

/-- Operand 3 of an EVEX.128 or EVEX.256 form: register, full-width memory, or 64-bit broadcast memory. -/
inductive EvexOperand where
  | reg (r : BitVec 5)
  | mem (a : Addr)
  | bcst (a : Addr)
  deriving DecidableEq, Repr

/-- Operand 3 of an EVEX.512 form: as `EvexOperand`, and a register with embedded rounding `{er}` whose two bits are
`EVEX.RC` (30_encoding.md R75). -/
inductive EvexOperandEr where
  | reg (r : BitVec 5)
  | regEr (rc : BitVec 2) (r : BitVec 5)
  | mem (a : Addr)
  | bcst (a : Addr)
  deriving DecidableEq, Repr

/-- The write mask of an EVEX form: `aaa` selects the opmask register, 0 none (30_encoding.md R72); `z` asks for
zeroing-masking (R73). -/
structure WriteMask where
  aaa : BitVec 3
  z : Bool
  deriving DecidableEq, Repr

/-- Which of the three mnemonics: the digits say which operands are multiplied and which is subtracted
(40_fnmsub_lane.md R101). -/
inductive FmaOrder where
  | o132 | o213 | o231
  deriving DecidableEq, Repr

/-- The fifteen rows of the opcode table, in its order. -/
inductive Instr where
  | vfnmsub132pdVex128 (seg : Option Seg) (dest src2 : BitVec 4) (src3 : VexOperand)
  | vfnmsub213pdVex128 (seg : Option Seg) (dest src2 : BitVec 4) (src3 : VexOperand)
  | vfnmsub231pdVex128 (seg : Option Seg) (dest src2 : BitVec 4) (src3 : VexOperand)
  | vfnmsub132pdVex256 (seg : Option Seg) (dest src2 : BitVec 4) (src3 : VexOperand)
  | vfnmsub213pdVex256 (seg : Option Seg) (dest src2 : BitVec 4) (src3 : VexOperand)
  | vfnmsub231pdVex256 (seg : Option Seg) (dest src2 : BitVec 4) (src3 : VexOperand)
  | vfnmsub132pdEvex128 (seg : Option Seg) (dest src2 : BitVec 5) (mask : WriteMask) (src3 : EvexOperand)
  | vfnmsub213pdEvex128 (seg : Option Seg) (dest src2 : BitVec 5) (mask : WriteMask) (src3 : EvexOperand)
  | vfnmsub231pdEvex128 (seg : Option Seg) (dest src2 : BitVec 5) (mask : WriteMask) (src3 : EvexOperand)
  | vfnmsub132pdEvex256 (seg : Option Seg) (dest src2 : BitVec 5) (mask : WriteMask) (src3 : EvexOperand)
  | vfnmsub213pdEvex256 (seg : Option Seg) (dest src2 : BitVec 5) (mask : WriteMask) (src3 : EvexOperand)
  | vfnmsub231pdEvex256 (seg : Option Seg) (dest src2 : BitVec 5) (mask : WriteMask) (src3 : EvexOperand)
  | vfnmsub132pdEvex512 (seg : Option Seg) (dest src2 : BitVec 5) (mask : WriteMask) (src3 : EvexOperandEr)
  | vfnmsub213pdEvex512 (seg : Option Seg) (dest src2 : BitVec 5) (mask : WriteMask) (src3 : EvexOperandEr)
  | vfnmsub231pdEvex512 (seg : Option Seg) (dest src2 : BitVec 5) (mask : WriteMask) (src3 : EvexOperandEr)
  deriving DecidableEq, Repr

/-- The modes of the processor. `MODE` of 00_scope.md R7 is `prot32` or `long64`; the other two are the modes in
which no form executes (R6, 60_exceptions.md R166), of which `realAddress` is the mode after reset (10_state.md
R36). -/
inductive CpuMode where
  | realAddress | virtual8086 | prot32 | long64
  deriving DecidableEq, Repr

end Sys2Proof
end

