-- ==== Sys2Proof/WellFormed.lean ====
section
/-! DEFINITION. Which terms of `Instr` are encodings of a row in a given mode: the address forms that 30_encoding.md
R76 has, the register numbers that `Prot32` can name (R83, 10_state.md R21), and no zeroing without a mask (R81). -/

namespace Sys2Proof

/-- The displacement `none` is not available with base 101: those bytes are `relative` or `sibNoBase` (R76). -/
def Disp.allowedWith (base : BitVec 4) : Disp → Bool
  | .none => base.setWidth 3 != 0b101#3
  | _ => true

/-- R76: `rm = 100` announces a SIB byte, so it names no base register itself. -/
def Addr.wf : Addr → Bool
  | .based base d => base.setWidth 3 != 0b100#3 && d.allowedWith base
  | .relative _ => true
  | .sib _ _ base d => d.allowedWith base
  | .sibNoBase _ _ _ => true

/-- Only general registers 0 to 7 are named (10_state.md R31, 30_encoding.md R83). -/
def Addr.lowRegs : Addr → Bool
  | .based base _ => !base.msb
  | .relative _ => true
  | .sib _ index base _ => !index.msb && !base.msb
  | .sibNoBase _ index _ => !index.msb

/-- Outside `Long64` an address names only registers 0 to 7. -/
def Addr.wfIn (m : CpuMode) (a : Addr) : Bool := a.wf && (m == .long64 || a.lowRegs)

/-- 10_state.md R21: a VEX register number is 0..15 in `Long64`, 0..7 otherwise. -/
def vexRegIn (m : CpuMode) (r : BitVec 4) : Bool := m == .long64 || !r.msb

/-- 10_state.md R21: an EVEX register number is 0..31 in `Long64`, 0..7 otherwise. -/
def evexRegIn (m : CpuMode) (r : BitVec 5) : Bool := m == .long64 || r.toNat < 8

def VexOperand.wfIn (m : CpuMode) : VexOperand → Bool
  | .reg r => vexRegIn m r
  | .mem a => a.wfIn m

def EvexOperand.wfIn (m : CpuMode) : EvexOperand → Bool
  | .reg r => evexRegIn m r
  | .mem a => a.wfIn m
  | .bcst a => a.wfIn m

def EvexOperandEr.wfIn (m : CpuMode) : EvexOperandEr → Bool
  | .reg r => evexRegIn m r
  | .regEr _ r => evexRegIn m r
  | .mem a => a.wfIn m
  | .bcst a => a.wfIn m

/-- 30_encoding.md R81 line 7: zeroing-masking needs a mask register. -/
def WriteMask.wf (k : WriteMask) : Bool := !(k.z && k.aaa == 0#3)

def vexWf (m : CpuMode) (dest src2 : BitVec 4) (src3 : VexOperand) : Bool :=
  vexRegIn m dest && vexRegIn m src2 && src3.wfIn m

def evexWf (m : CpuMode) (dest src2 : BitVec 5) (k : WriteMask) (operandWf : Bool) : Bool :=
  evexRegIn m dest && evexRegIn m src2 && k.wf && operandWf

/-- `i` is what some bytes mean in mode `m`. -/
def Instr.wf (m : CpuMode) : Instr → Bool
  | .vfnmsub132pdVex128 _ d s2 s3 => vexWf m d s2 s3
  | .vfnmsub213pdVex128 _ d s2 s3 => vexWf m d s2 s3
  | .vfnmsub231pdVex128 _ d s2 s3 => vexWf m d s2 s3
  | .vfnmsub132pdVex256 _ d s2 s3 => vexWf m d s2 s3
  | .vfnmsub213pdVex256 _ d s2 s3 => vexWf m d s2 s3
  | .vfnmsub231pdVex256 _ d s2 s3 => vexWf m d s2 s3
  | .vfnmsub132pdEvex128 _ d s2 k s3 => evexWf m d s2 k (s3.wfIn m)
  | .vfnmsub213pdEvex128 _ d s2 k s3 => evexWf m d s2 k (s3.wfIn m)
  | .vfnmsub231pdEvex128 _ d s2 k s3 => evexWf m d s2 k (s3.wfIn m)
  | .vfnmsub132pdEvex256 _ d s2 k s3 => evexWf m d s2 k (s3.wfIn m)
  | .vfnmsub213pdEvex256 _ d s2 k s3 => evexWf m d s2 k (s3.wfIn m)
  | .vfnmsub231pdEvex256 _ d s2 k s3 => evexWf m d s2 k (s3.wfIn m)
  | .vfnmsub132pdEvex512 _ d s2 k s3 => evexWf m d s2 k (s3.wfIn m)
  | .vfnmsub213pdEvex512 _ d s2 k s3 => evexWf m d s2 k (s3.wfIn m)
  | .vfnmsub231pdEvex512 _ d s2 k s3 => evexWf m d s2 k (s3.wfIn m)

end Sys2Proof
end

