-- ==== Sys2Proof/Decode.lean ====
section
/-! DEFINITION. Decoding of bytes to the fifteen forms (30_encoding.md), total, rejecting by name; and the encoder,
written from the same tables. -/

namespace Sys2Proof

/-! ## What the decoder answers -/

/-- Bytes that are out of scope: the machine refuses them, never #UD (30_encoding.md R82, R83). -/
inductive OutOfScope where
  /-- Another instruction, or an illegal one this spec knows nothing of (R82). -/
  | otherInstruction
  /-- A 67H byte (R83). -/
  | addressSize
  /-- More than one legacy byte before C4 or 62 (R83). -/
  | repeatedLegacy
  /-- Outside `Long64`, C4 or 62 whose next byte has bits 7:6 other than 11: LES or BOUND (R83). -/
  | lesOrBound
  /-- In `Prot32`, an extension bit that would name a register above 7 (R83). -/
  | highRegister
  deriving DecidableEq, Repr

/-- Bytes that select a row but raise #UD (30_encoding.md R81; lines 2 and 3 depend on the state and are checked by
the meanings). -/
inductive Illegal where
  /-- Line 1: a LOCK, 66, F2, F3 or REX byte before the VEX or EVEX byte. -/
  | leadByte
  /-- Line 4: P0 bits 3:2 are not 00. -/
  | reservedP0
  /-- Line 5: P1 bit 2 is not 1. -/
  | fixedP1
  /-- Line 6: `L'L = 11` as a length. -/
  | vectorLength
  /-- Line 7: `z = 1` with `aaa = 000`. -/
  | zeroingWithoutMask
  /-- Line 3, judged while decoding: a row that names a register above 7 in real-address or virtual-8086 mode, where no
  form is recognised (60_exceptions.md R166, R167; 70_reset_and_hazards.md R190; log entry 11). -/
  | notRecognised
  deriving DecidableEq, Repr

inductive Decoded where
  | instr (i : Instr)
  | illegal (why : Illegal)
  | outOfScope (why : OutOfScope)
  /-- The bytes end before the instruction does (10_state.md R30). -/
  | truncated
  deriving DecidableEq, Repr

/-! ## Bit fields -/

/-- Bits `hi:lo` of a byte, `n = hi - lo + 1` of them (00_scope.md R8). -/
def Byte.field (b : Byte) (lo n : Nat) : BitVec n := b.extractLsb' lo n

/-- A bit that the encoding stores inverted, read as its true value (R62, R64). -/
def Byte.inverted (b : Byte) (i : Nat) : Bool := !b.getLsbD i

/-- Four displacement bytes, little-endian (R76). -/
def le32 (b0 b1 b2 b3 : Byte) : BitVec 32 := b3 ++ b2 ++ b1 ++ b0

/-- The bytes of a 32-bit displacement, lowest first (R76). -/
def le32Bytes (w : BitVec 32) : List Byte :=
  [w.extractLsb' 0 8, w.extractLsb' 8 8, w.extractLsb' 16 8, w.extractLsb' 24 8]

/-! ## Legacy and REX bytes before the VEX or EVEX byte -/

inductive LeadByte where
  /-- A segment override (R61). -/
  | segment (s : Seg)
  /-- 67H (R83). -/
  | addressSize
  /-- LOCK, 66, F2 or F3 (R81 line 1). -/
  | illegalLegacy
  /-- REX, 40 to 4F, which is such a byte in `Long64` only (R81 line 1; log entry 12). -/
  | rex
  deriving DecidableEq, Repr

def leadByte (m : CpuMode) (b : Byte) : Option LeadByte :=
  if b = 0x26#8 then some (.segment .es)
  else if b = 0x2E#8 then some (.segment .cs)
  else if b = 0x36#8 then some (.segment .ss)
  else if b = 0x3E#8 then some (.segment .ds)
  else if b = 0x64#8 then some (.segment .fs)
  else if b = 0x65#8 then some (.segment .gs)
  else if b = 0x67#8 then some .addressSize
  else if b = 0xF0#8 ∨ b = 0x66#8 ∨ b = 0xF2#8 ∨ b = 0xF3#8 then some .illegalLegacy
  else if m = .long64 ∧ b.field 4 4 = 0x4#4 then some .rex
  else none

/-- The bytes before the first byte that is no `LeadByte`, and the rest. -/
def splitLead (m : CpuMode) : List Byte → List LeadByte × List Byte
  | [] => ([], [])
  | b :: t =>
    match leadByte m b with
    | some l => (l :: (splitLead m t).1, (splitLead m t).2)
    | none => ([], b :: t)

def LeadByte.isLegacy : LeadByte → Bool
  | .rex => false
  | _ => true

/-- The segment override among the lead bytes. -/
def leadSegment : List LeadByte → Option Seg
  | [] => none
  | .segment s :: _ => some s
  | _ :: t => leadSegment t

/-- R83: what makes the lead bytes out of scope. -/
def leadOutOfScope (ls : List LeadByte) : Option OutOfScope :=
  if ls.contains .addressSize then some .addressSize
  else if 2 ≤ ls.countP LeadByte.isLegacy then some .repeatedLegacy
  else none

/-- R81 line 1. -/
def leadIllegal (ls : List LeadByte) : Bool := ls.contains .illegalLegacy || ls.contains .rex

/-! ## ModRM, SIB, displacement -/

/-- What ModRM, SIB and displacement name: a register `rm` or an address. -/
inductive RegOrMem where
  | reg (rm : BitVec 3)
  | mem (a : Addr)
  deriving DecidableEq, Repr

/-- A register number with its extension bit on top. -/
def extend (e : Bool) (r : BitVec 3) : BitVec 4 := BitVec.ofBool e ++ r

/-- The displacement after ModRM and SIB, by `mod` (R76); `none` where the bytes end. -/
def decodeDisp (mod : BitVec 2) (t : List Byte) : Option Disp :=
  if mod = 0b01#2 then
    match t with
    | d :: _ => some (.d8 d)
    | _ => none
  else if mod = 0b10#2 then
    match t with
    | d0 :: d1 :: d2 :: d3 :: _ => some (.d32 (le32 d0 d1 d2 d3))
    | _ => none
  else some .none

/-- The four bytes of a displacement that has no base register (R76). -/
def decodeDisp32 : List Byte → Option (BitVec 32)
  | d0 :: d1 :: d2 :: d3 :: _ => some (le32 d0 d1 d2 d3)
  | _ => none

/-- R76, the rows with `rm = 100`. -/
def decodeSib (mod : BitVec 2) (x b : Bool) : List Byte → Option Addr
  | [] => none
  | sib :: t =>
    if mod = 0b00#2 ∧ sib.field 0 3 = 0b101#3 then
      (decodeDisp32 t).map (.sibNoBase (sib.field 6 2) (extend x (sib.field 3 3)))
    else
      (decodeDisp mod t).map (.sib (sib.field 6 2) (extend x (sib.field 3 3)) (extend b (sib.field 0 3)))

/-- R68, R76: `x` and `b` are the true values of the extension bits. -/
def decodeModRm (x b : Bool) (modrm : Byte) (t : List Byte) : Option RegOrMem :=
  if modrm.field 6 2 = 0b11#2 then some (.reg (modrm.field 0 3))
  else if modrm.field 0 3 = 0b100#3 then (decodeSib (modrm.field 6 2) x b t).map .mem
  else if modrm.field 6 2 = 0b00#2 ∧ modrm.field 0 3 = 0b101#3 then
    (decodeDisp32 t).map fun d => .mem (.relative d)
  else (decodeDisp (modrm.field 6 2) t).map fun d => .mem (.based (extend b (modrm.field 0 3)) d)

/-! ## The rows -/

/-- R67: the opcode byte is the only thing that tells the three instructions apart. -/
def orderOf (op : Byte) : Option FmaOrder :=
  if op = 0x9E#8 then some .o132
  else if op = 0xAE#8 then some .o213
  else if op = 0xBE#8 then some .o231
  else none

/-- Rows 1 to 6; `l` is `VEX.L`. -/
def vexInstr (o : FmaOrder) (l : Bool) (seg : Option Seg) (dest src2 : BitVec 4) (src3 : VexOperand) : Instr :=
  match o, l with
  | .o132, false => .vfnmsub132pdVex128 seg dest src2 src3
  | .o213, false => .vfnmsub213pdVex128 seg dest src2 src3
  | .o231, false => .vfnmsub231pdVex128 seg dest src2 src3
  | .o132, true => .vfnmsub132pdVex256 seg dest src2 src3
  | .o213, true => .vfnmsub213pdVex256 seg dest src2 src3
  | .o231, true => .vfnmsub231pdVex256 seg dest src2 src3

/-- Rows 7 to 12; `l` is the low bit of `L'L`. -/
def evexInstr (o : FmaOrder) (l : Bool) (seg : Option Seg) (dest src2 : BitVec 5) (k : WriteMask)
    (src3 : EvexOperand) : Instr :=
  match o, l with
  | .o132, false => .vfnmsub132pdEvex128 seg dest src2 k src3
  | .o213, false => .vfnmsub213pdEvex128 seg dest src2 k src3
  | .o231, false => .vfnmsub231pdEvex128 seg dest src2 k src3
  | .o132, true => .vfnmsub132pdEvex256 seg dest src2 k src3
  | .o213, true => .vfnmsub213pdEvex256 seg dest src2 k src3
  | .o231, true => .vfnmsub231pdEvex256 seg dest src2 k src3

/-- Rows 13 to 15. -/
def evexInstr512 (o : FmaOrder) (seg : Option Seg) (dest src2 : BitVec 5) (k : WriteMask)
    (src3 : EvexOperandEr) : Instr :=
  match o with
  | .o132 => .vfnmsub132pdEvex512 seg dest src2 k src3
  | .o213 => .vfnmsub213pdEvex512 seg dest src2 k src3
  | .o231 => .vfnmsub231pdEvex512 seg dest src2 k src3

/-- Real-address and virtual-8086 mode, where no form is recognised (60_exceptions.md R166). -/
def CpuMode.isReal (m : CpuMode) : Bool := m == .realAddress || m == .virtual8086

/-- The bytes after C4 (R62, R65): two more bytes of the VEX group, the opcode, ModRM and what follows. DESIGN CHOICE
(safe, log entry 29): bytes that end before ModRM are `truncated` (10_state.md R30), also where those present already
show another instruction (R82, R83). -/
def decodeVex (m : CpuMode) (seg : Option Seg) : List Byte → Decoded
  | b1 :: b2 :: op :: modrm :: t =>
    if m ≠ .long64 ∧ b1.field 6 2 ≠ 0b11#2 then .outOfScope .lesOrBound
    else if b1.field 0 5 ≠ 0b00010#5 ∨ b2.getLsbD 7 = false ∨ b2.field 0 2 ≠ 0b01#2 then .outOfScope .otherInstruction
    else
      match orderOf op with
      | none => .outOfScope .otherInstruction
      | some o =>
        if m = .prot32 ∧ (b1.inverted 5 ∨ b2.inverted 6) then .outOfScope .highRegister
        else
          match decodeModRm (b1.inverted 6) (b1.inverted 5) modrm t with
          | none => .truncated
          | some operand =>
            if m.isReal ∧ (b1.inverted 5 ∨ b2.inverted 6) then .illegal .notRecognised else
            let dest := extend (b1.inverted 7) (modrm.field 3 3)
            let src2 := ~~~(b2.field 3 4)
            match operand with
            | .reg rm => .instr (vexInstr o (b2.getLsbD 2) seg dest src2 (.reg (extend (b1.inverted 5) rm)))
            | .mem a => .instr (vexInstr o (b2.getLsbD 2) seg dest src2 (.mem a))
  | _ => .truncated

/-- R81 lines 4 to 7, in that order. `regOperand` says that `mod = 11`. -/
def evexIllegal (p0 p1 p2 : Byte) (regOperand : Bool) : Option Illegal :=
  if p0.field 2 2 ≠ 0b00#2 then some .reservedP0
  else if p1.getLsbD 2 = false then some .fixedP1
  else if p2.field 5 2 = 0b11#2 ∧ ¬(regOperand = true ∧ p2.getLsbD 4 = true) then some .vectorLength
  else if p2.getLsbD 7 = true ∧ p2.field 0 3 = 0b000#3 then some .zeroingWithoutMask
  else none

/-- R75: the row and operand 3 that `mod`, `b` and `L'L` select, once R81 has excluded a length of 11. -/
def evexRow (o : FmaOrder) (seg : Option Seg) (dest src2 : BitVec 5) (k : WriteMask) (ll : BitVec 2) (b : Bool)
    (xb : BitVec 2) (operand : RegOrMem) : Instr :=
  match operand, b with
  | .reg rm, true => evexInstr512 o seg dest src2 k (.regEr ll (xb ++ rm))
  | .reg rm, false =>
    if ll = 0b10#2 then evexInstr512 o seg dest src2 k (.reg (xb ++ rm))
    else evexInstr o (ll == 0b01#2) seg dest src2 k (.reg (xb ++ rm))
  | .mem a, true =>
    if ll = 0b10#2 then evexInstr512 o seg dest src2 k (.bcst a)
    else evexInstr o (ll == 0b01#2) seg dest src2 k (.bcst a)
  | .mem a, false =>
    if ll = 0b10#2 then evexInstr512 o seg dest src2 k (.mem a)
    else evexInstr o (ll == 0b01#2) seg dest src2 k (.mem a)

/-- The bytes after 62 (R64, R66): P0, P1, P2, the opcode, ModRM and what follows. DESIGN CHOICE (safe): bytes that end
before ModRM are `truncated` (log entry 29), and in `Prot32` an encoding that both extends a register number and meets a
condition of R81 is refused by R83, before R81 is looked at (log entry 28). -/
def decodeEvex (m : CpuMode) (seg : Option Seg) : List Byte → Decoded
  | p0 :: p1 :: p2 :: op :: modrm :: t =>
    if m ≠ .long64 ∧ p0.field 6 2 ≠ 0b11#2 then .outOfScope .lesOrBound
    else if p0.field 0 2 ≠ 0b10#2 ∨ p1.getLsbD 7 = false ∨ p1.field 0 2 ≠ 0b01#2 then .outOfScope .otherInstruction
    else
      match orderOf op with
      | none => .outOfScope .otherInstruction
      | some o =>
        if m = .prot32 ∧ (p0.inverted 5 ∨ p0.inverted 4 ∨ p1.inverted 6 ∨ p2.inverted 3) then
          .outOfScope .highRegister
        else
          match decodeModRm (p0.inverted 6) (p0.inverted 5) modrm t with
          | none => .truncated
          | some operand =>
            match evexIllegal p0 p1 p2 (modrm.field 6 2 == 0b11#2) with
            | some why => .illegal why
            | none =>
              if m.isReal ∧ (p0.inverted 5 ∨ p0.inverted 4 ∨ p1.inverted 6 ∨ p2.inverted 3) then
                .illegal .notRecognised
              else
              .instr (evexRow o seg
                (BitVec.ofBool (p0.inverted 4) ++ BitVec.ofBool (p0.inverted 7) ++ modrm.field 3 3)
                (BitVec.ofBool (p2.inverted 3) ++ ~~~(p1.field 3 4))
                { aaa := p2.field 0 3, z := p2.getLsbD 7 } (p2.field 5 2) (p2.getLsbD 4)
                (BitVec.ofBool (p0.inverted 6) ++ BitVec.ofBool (p0.inverted 5)) operand)
  | _ => .truncated

/-- The bytes after the lead bytes: a VEX form, an EVEX form, or neither. -/
def decodeBody (m : CpuMode) (seg : Option Seg) : List Byte → Decoded
  | [] => .truncated
  | b :: t =>
    if b = 0xC4#8 then decodeVex m seg t
    else if b = 0x62#8 then decodeEvex m seg t
    else .outOfScope .otherInstruction

/-- The instruction that `bs` begins with, in mode `m`. Real-address and virtual-8086 mode are decoded like `Prot32`
(log entry 11), but that a row which extends a register number is illegal there and not out of scope. In `Prot32` such a
row is refused (R83) also where a LOCK, 66, F2 or F3 byte precedes it (R81 line 1; DESIGN CHOICE, safe, log entry 28). -/
def decode (m : CpuMode) (bs : List Byte) : Decoded :=
  match leadOutOfScope (splitLead m bs).1 with
  | some why => .outOfScope why
  | none =>
    match decodeBody m (leadSegment (splitLead m bs).1) (splitLead m bs).2 with
    | .outOfScope why => .outOfScope why
    | .truncated => .truncated
    | .illegal why => .illegal (if leadIllegal (splitLead m bs).1 then .leadByte else why)
    | .instr i => if leadIllegal (splitLead m bs).1 then .illegal .leadByte else .instr i

/-! ## Length -/

def Disp.length : Disp → Nat
  | .none => 0
  | .d8 _ => 1
  | .d32 _ => 4

/-- SIB and displacement bytes (30_encoding.md R76, R79). -/
def Addr.length : Addr → Nat
  | .based _ d => d.length
  | .relative _ => 4
  | .sib _ _ _ d => 1 + d.length
  | .sibNoBase _ _ _ => 1 + 4

def segLength : Option Seg → Nat
  | none => 0
  | some _ => 1

def VexOperand.length : VexOperand → Nat
  | .reg _ => 0
  | .mem a => a.length

def EvexOperand.length : EvexOperand → Nat
  | .reg _ => 0
  | .mem a => a.length
  | .bcst a => a.length

def EvexOperandEr.length : EvexOperandEr → Nat
  | .reg _ => 0
  | .regEr _ _ => 0
  | .mem a => a.length
  | .bcst a => a.length

/-- R79 for a VEX form: the override, three bytes of VEX, the opcode, ModRM, SIB and displacement. -/
def vexLength (seg : Option Seg) (operandBytes : Nat) : Nat := segLength seg + 3 + 1 + 1 + operandBytes

/-- R79 for an EVEX form: four bytes of EVEX. -/
def evexLength (seg : Option Seg) (operandBytes : Nat) : Nat := segLength seg + 4 + 1 + 1 + operandBytes

/-- The length of the instruction in bytes (30_encoding.md R79). -/
def Instr.length : Instr → Nat
  | .vfnmsub132pdVex128 seg _ _ s3 => vexLength seg s3.length
  | .vfnmsub213pdVex128 seg _ _ s3 => vexLength seg s3.length
  | .vfnmsub231pdVex128 seg _ _ s3 => vexLength seg s3.length
  | .vfnmsub132pdVex256 seg _ _ s3 => vexLength seg s3.length
  | .vfnmsub213pdVex256 seg _ _ s3 => vexLength seg s3.length
  | .vfnmsub231pdVex256 seg _ _ s3 => vexLength seg s3.length
  | .vfnmsub132pdEvex128 seg _ _ _ s3 => evexLength seg s3.length
  | .vfnmsub213pdEvex128 seg _ _ _ s3 => evexLength seg s3.length
  | .vfnmsub231pdEvex128 seg _ _ _ s3 => evexLength seg s3.length
  | .vfnmsub132pdEvex256 seg _ _ _ s3 => evexLength seg s3.length
  | .vfnmsub213pdEvex256 seg _ _ _ s3 => evexLength seg s3.length
  | .vfnmsub231pdEvex256 seg _ _ _ s3 => evexLength seg s3.length
  | .vfnmsub132pdEvex512 seg _ _ _ s3 => evexLength seg s3.length
  | .vfnmsub213pdEvex512 seg _ _ _ s3 => evexLength seg s3.length
  | .vfnmsub231pdEvex512 seg _ _ _ s3 => evexLength seg s3.length

/-! ## Encoding -/

def Seg.byte : Seg → Byte
  | .es => 0x26#8
  | .cs => 0x2E#8
  | .ss => 0x36#8
  | .ds => 0x3E#8
  | .fs => 0x64#8
  | .gs => 0x65#8

def segBytes : Option Seg → List Byte
  | none => []
  | some s => [s.byte]

def opcodeByte : FmaOrder → Byte
  | .o132 => 0x9E#8
  | .o213 => 0xAE#8
  | .o231 => 0xBE#8

/-- A ModRM byte (R68), also the layout of a SIB byte (R76). -/
def modrmByte (mod : BitVec 2) (reg rm : BitVec 3) : Byte := mod ++ reg ++ rm

def Disp.mod : Disp → BitVec 2
  | .none => 0b00#2
  | .d8 _ => 0b01#2
  | .d32 _ => 0b10#2

def Disp.bytes : Disp → List Byte
  | .none => []
  | .d8 b => [b]
  | .d32 w => le32Bytes w

/-- The low three bits of a general register number. -/
def low3 (r : BitVec 4) : BitVec 3 := r.extractLsb' 0 3

/-- Extension bit `X` of an address (R76). -/
def Addr.xBit : Addr → Bool
  | .sib _ index _ _ => index.msb
  | .sibNoBase _ index _ => index.msb
  | _ => false

/-- Extension bit `B` of an address (R76). -/
def Addr.bBit : Addr → Bool
  | .based base _ => base.msb
  | .sib _ _ base _ => base.msb
  | _ => false

/-- ModRM, SIB and displacement of a memory operand (R76), `reg` being ModRM.reg. -/
def Addr.bytes (reg : BitVec 3) : Addr → List Byte
  | .based base d => modrmByte d.mod reg (low3 base) :: d.bytes
  | .relative d => modrmByte 0b00#2 reg 0b101#3 :: le32Bytes d
  | .sib scale index base d =>
    modrmByte d.mod reg 0b100#3 :: modrmByte scale (low3 index) (low3 base) :: d.bytes
  | .sibNoBase scale index d =>
    modrmByte 0b00#2 reg 0b100#3 :: modrmByte scale (low3 index) 0b101#3 :: le32Bytes d

/-- Byte 1 of VEX (R62, R65): `R̄ X̄ B̄ 00010`. -/
def vexByte1 (r x b : Bool) : Byte := BitVec.ofBool (!r) ++ BitVec.ofBool (!x) ++ BitVec.ofBool (!b) ++ 0b00010#5

/-- Byte 2 of VEX (R62, R65): `1 v̄v̄v̄v̄ L 01`. -/
def vexByte2 (src2 : BitVec 4) (l : Bool) : Byte := 0b1#1 ++ ~~~src2 ++ BitVec.ofBool l ++ 0b01#2

def encodeVex (o : FmaOrder) (l : Bool) (seg : Option Seg) (dest src2 : BitVec 4) (src3 : VexOperand) : List Byte :=
  segBytes seg ++
    match src3 with
    | .reg r =>
      [0xC4#8, vexByte1 dest.msb false r.msb, vexByte2 src2 l, opcodeByte o, modrmByte 0b11#2 (low3 dest) (low3 r)]
    | .mem a =>
      [0xC4#8, vexByte1 dest.msb a.xBit a.bBit, vexByte2 src2 l, opcodeByte o] ++ a.bytes (low3 dest)

/-- P0 of EVEX (R64, R66): `R̄ X̄ B̄ R̄' 00 10`. -/
def evexP0 (dest : BitVec 5) (x b : Bool) : Byte :=
  BitVec.ofBool (!(dest.getLsbD 3)) ++ BitVec.ofBool (!x) ++ BitVec.ofBool (!b) ++ BitVec.ofBool (!(dest.getLsbD 4)) ++ 0b0010#4

/-- P1 of EVEX (R64, R66): `1 v̄v̄v̄v̄ 1 01`. -/
def evexP1 (src2 : BitVec 5) : Byte := 0b1#1 ++ ~~~(src2.extractLsb' 0 4) ++ 0b101#3

/-- P2 of EVEX (R64, R66): `z L'L b V̄' aaa`. -/
def evexP2 (src2 : BitVec 5) (k : WriteMask) (ll : BitVec 2) (b : Bool) : Byte :=
  BitVec.ofBool k.z ++ ll ++ BitVec.ofBool b ++ BitVec.ofBool (!(src2.getLsbD 4)) ++ k.aaa

/-- An EVEX form with a register operand 3; `b` asks for embedded rounding, and then `ll` is `EVEX.RC` (R75). -/
def encodeEvexReg (o : FmaOrder) (seg : Option Seg) (dest src2 : BitVec 5) (k : WriteMask) (ll : BitVec 2) (b : Bool)
    (r : BitVec 5) : List Byte :=
  segBytes seg ++ [0x62#8, evexP0 dest (r.getLsbD 4) (r.getLsbD 3), evexP1 src2, evexP2 src2 k ll b, opcodeByte o,
    modrmByte 0b11#2 (dest.extractLsb' 0 3) (r.extractLsb' 0 3)]

/-- An EVEX form with a memory operand 3; `b` asks for a broadcast (R74). -/
def encodeEvexMem (o : FmaOrder) (seg : Option Seg) (dest src2 : BitVec 5) (k : WriteMask) (ll : BitVec 2) (b : Bool)
    (a : Addr) : List Byte :=
  segBytes seg ++ [0x62#8, evexP0 dest a.xBit a.bBit, evexP1 src2, evexP2 src2 k ll b, opcodeByte o] ++
    a.bytes (dest.extractLsb' 0 3)

def encodeEvex (o : FmaOrder) (l : Bool) (seg : Option Seg) (dest src2 : BitVec 5) (k : WriteMask) :
    EvexOperand → List Byte
  | .reg r => encodeEvexReg o seg dest src2 k (0b0#1 ++ BitVec.ofBool l) false r
  | .mem a => encodeEvexMem o seg dest src2 k (0b0#1 ++ BitVec.ofBool l) false a
  | .bcst a => encodeEvexMem o seg dest src2 k (0b0#1 ++ BitVec.ofBool l) true a

def encodeEvex512 (o : FmaOrder) (seg : Option Seg) (dest src2 : BitVec 5) (k : WriteMask) : EvexOperandEr → List Byte
  | .reg r => encodeEvexReg o seg dest src2 k 0b10#2 false r
  | .regEr rc r => encodeEvexReg o seg dest src2 k rc true r
  | .mem a => encodeEvexMem o seg dest src2 k 0b10#2 false a
  | .bcst a => encodeEvexMem o seg dest src2 k 0b10#2 true a

/-- The bytes of an instruction, lowest address first (30_encoding.md R61, R65, R66). Bits that the rules ignore are
stored as 1 (not extended). -/
def encode : Instr → List Byte
  | .vfnmsub132pdVex128 seg d s2 s3 => encodeVex .o132 false seg d s2 s3
  | .vfnmsub213pdVex128 seg d s2 s3 => encodeVex .o213 false seg d s2 s3
  | .vfnmsub231pdVex128 seg d s2 s3 => encodeVex .o231 false seg d s2 s3
  | .vfnmsub132pdVex256 seg d s2 s3 => encodeVex .o132 true seg d s2 s3
  | .vfnmsub213pdVex256 seg d s2 s3 => encodeVex .o213 true seg d s2 s3
  | .vfnmsub231pdVex256 seg d s2 s3 => encodeVex .o231 true seg d s2 s3
  | .vfnmsub132pdEvex128 seg d s2 k s3 => encodeEvex .o132 false seg d s2 k s3
  | .vfnmsub213pdEvex128 seg d s2 k s3 => encodeEvex .o213 false seg d s2 k s3
  | .vfnmsub231pdEvex128 seg d s2 k s3 => encodeEvex .o231 false seg d s2 k s3
  | .vfnmsub132pdEvex256 seg d s2 k s3 => encodeEvex .o132 true seg d s2 k s3
  | .vfnmsub213pdEvex256 seg d s2 k s3 => encodeEvex .o213 true seg d s2 k s3
  | .vfnmsub231pdEvex256 seg d s2 k s3 => encodeEvex .o231 true seg d s2 k s3
  | .vfnmsub132pdEvex512 seg d s2 k s3 => encodeEvex512 .o132 seg d s2 k s3
  | .vfnmsub213pdEvex512 seg d s2 k s3 => encodeEvex512 .o213 seg d s2 k s3
  | .vfnmsub231pdEvex512 seg d s2 k s3 => encodeEvex512 .o231 seg d s2 k s3

/-! ## The host's numbering of words -/

/-- The longest admitted instruction: a segment override and the eleven bytes of an EVEX form with SIB and disp32
(R79, R83). -/
def maxLength : Nat := 12

/-- The bytes of the word `w`, lowest first: byte `i` is bits `8*i+7 : 8*i`, only the low `nbits` bits counting. -/
def wordBytes (nbits w : Nat) : List Byte :=
  (List.range maxLength).map fun i => BitVec.ofNat 8 ((w % 2 ^ nbits) >>> (8 * i))

/-- The instruction that the decoder reads, in `Long64`, from the bytes of the word `w`. -/
def decodeTableWord (nbits w : Nat) : Option Instr :=
  match decode .long64 (wordBytes nbits w) with
  | .instr i => some i
  | _ => none

end Sys2Proof
end

