-- ==== Sys2Proof/Machine/State.lean ====
section
/-! DEFINITION. The state of the machine (10_state.md; 00_scope.md R7), why a step stops (60_exceptions.md R161,
R176), and the state after reset (10_state.md R36). -/

namespace Sys2Proof.Machine

open Sys2Proof

/-- `Mem`, a partial map from byte addresses to bytes (20_memory.md R48, D10): cells with strictly rising addresses.
An address that is not listed is outside the domain of `Mem`. -/
abbrev Memory := List Host.Cell

/-- The program text: the bytes of the instructions, laid end to end, the first at `base` (10_state.md R35). It is
immutable and separate from `Mem`, which it may overlap. -/
structure ProgramText where
  base : Word64
  bytes : List Byte
  deriving DecidableEq, Repr

/-- The parameters of 00_scope.md R7 that are not functions of other state, and the segment bases that the default
instantiation of `EA` uses (30_encoding.md R77). No form writes any of them. -/
structure Params where
  /-- `MODE`. -/
  mode : CpuMode
  /-- CPUID flag FMA. -/
  hasFma : Bool
  /-- CPUID flag AVX512F. -/
  hasAvx512f : Bool
  /-- CPUID flag AVX512VL. -/
  hasAvx512vl : Bool
  /-- Memory faults on bytes of masked-off elements are suppressed (20_memory.md R47). -/
  faultSuppression : Bool
  /-- Bases of ES, CS, SS, DS, FS, GS, in that order (10_state.md R31). DESIGN CHOICE (safe, log entry 36): 64 bits each, in
  every mode. -/
  segBase : Vector Word64 6
  deriving DecidableEq, Repr

/-- System and control state (10_state.md R28, R32; 00_scope.md R7). No form writes any of it. DESIGN CHOICE (safe, log
entry 30): CR0, CR4, XCR0 and RFLAGS are held as 64 bits in every mode; the spec gives places of bits and no width. -/
structure SysRegs where
  cr0 : Word64
  cr4 : Word64
  xcr0 : Word64
  rflags : Word64
  /-- Current privilege level (60_exceptions.md R174), read by `AC_CHECK` only. -/
  cpl : BitVec 2
  /-- Some debug-register breakpoint is enabled (60_exceptions.md R166, `Enabled.nodebug`). -/
  breakpoints : Bool
  /-- The x87 status word, which no form touches (10_state.md R28). -/
  x87Status : BitVec 16
  /-- The x87 control word, which no form touches (10_state.md R28). -/
  x87Control : BitVec 16
  deriving DecidableEq, Repr

/-- Everything the spec gives the machine. -/
structure State where
  /-- `V[0] .. V[31]` (10_state.md R20). -/
  v : Vector Vec 32
  /-- `K[0] .. K[7]` (10_state.md R25). -/
  k : Vector Word64 8
  /-- MXCSR (10_state.md R27). -/
  mxcsr : BitVec 32
  /-- RIP; in `Prot32` its low 32 bits are EIP (10_state.md R29). -/
  pc : Word64
  /-- `x[0] .. x[15]`; in `Prot32` the low halves of the first eight (10_state.md R31). -/
  x : Vector Word64 16
  sys : SysRegs
  params : Params
  mem : Memory
  text : ProgramText
  /-- The model's own field: how many draws the run has made (log entry 6). -/
  draws : Nat
  deriving DecidableEq, Repr

/-- The faults (60_exceptions.md R161). A fault is terminal (R176); the state it leaves is `State.atFault`. -/
inductive Fault where
  /-- #UD: raised by `step` for an illegal encoding (30_encoding.md R81) and by every meaning when its feature or
  enabling is absent (R166, R167). The spec's own. Safe: the run ends, as the spec says. -/
  | ud
  /-- #NM: raised by every meaning when CR0.TS = 1 (R166). The spec's own. Safe. -/
  | nm
  /-- A memory fault: raised by a meaning whose memory operand has an unreadable byte that it needs (20_memory.md
  R47, R55). The class is a free value (log entry 10). Safe. -/
  | memory (c : MemoryFaultClass)
  /-- #AC(0): raised by a meaning for a misaligned operand when alignment checking is active (20_memory.md R44). For a
  full-width operand it is a draw, possibly spurious (log entry 9). Safe. -/
  | ac
  /-- #XM: raised by a meaning for an unmasked SIMD floating-point exception (R162); carries MXCSR as the fault leaves
  it, whose bits 5:0 are a draw (log entry 8). Safe. -/
  | xm (mxcsr : BitVec 32)
  /-- #UD in place of #XM when CR4.OSXMMEXCPT = 0 (R163); carries MXCSR like `xm`. Safe. -/
  | udSimd (mxcsr : BitVec 32)
  deriving DecidableEq, Repr

/-- Steps the model does not give (60_exceptions.md R176: a refusal says nothing about what the chip does). -/
inductive Refusal where
  /-- An instruction without a meaning: raised by no arm. Safe. -/
  | notModelled (mnemonic : String)
  /-- Raised by `step` on bytes that are no form in scope (30_encoding.md R82, R83). Safe. -/
  | outOfScope (why : OutOfScope)
  /-- Raised by `step` on an instruction that the program text ends inside of (10_state.md R30). Safe. -/
  | truncated
  /-- Raised by `step` when `pc` is just past the program text: the normal end of the run, not an error
  (70_reset_and_hazards.md R195). Safe. -/
  | endOfText
  /-- Raised by `step` when `pc` is anywhere else outside the program text (R195). Safe. -/
  | outsideText
  /-- Raised by the meaning of a masked EVEX form whose unreadable bytes all belong to masked-off elements, when
  `FAULT_SUPPRESSION` is false (20_memory.md R47). Safe. -/
  | maskedOffFault
  /-- Raised by `step` when the debug facility is active (60_exceptions.md R175, which puts it out of scope). Safe. -/
  | debugFacility
  deriving DecidableEq, Repr

/-- The parameters at reset: real-address mode (10_state.md R36), `FAULT_SUPPRESSION` at its default (R7). DESIGN
CHOICE (log entry 3): a processor with all three features, so that AVX512VL implies AVX512F (92_eei_decisions.md D4).
PRESUMED (log entry 2): the segment bases. -/
def Params.reset : Params where
  mode := .realAddress
  hasFma := true
  hasAvx512f := true
  hasAvx512vl := true
  faultSuppression := true
  segBase := #v[0, 0xFFFF0000, 0, 0, 0, 0]

/-- System state at reset: protected mode off, OSXSAVE = 0, XCR0 = 1, interrupts disabled (10_state.md R36). PRESUMED
(log entry 2): the other bits of CR0, CR4 and RFLAGS, CPL and the x87 words. -/
def SysRegs.reset : SysRegs where
  cr0 := 0x60000010
  cr4 := 0
  xcr0 := 1
  rflags := 2
  cpl := 0
  breakpoints := false
  x87Status := 0
  x87Control := 0x0040

/-- The machine after reset (10_state.md R36): vector, opmask and general registers 0, MXCSR = 1F80H, `pc` =
FFFFFFF0H, real-address mode, nothing in memory. No form can execute in it (70_reset_and_hazards.md R190). DESIGN
CHOICE (log entry 3): `x[2]`, which holds processor identification, is 0. -/
def State.reset : State where
  v := Vector.replicate 32 0
  k := Vector.replicate 8 0
  mxcsr := 0x1F80
  pc := 0xFFFFFFF0
  x := Vector.replicate 16 0
  sys := SysRegs.reset
  params := Params.reset
  mem := []
  text := { base := 0, bytes := [] }
  draws := 0

end Sys2Proof.Machine
end

