-- ==== Sys2Proof/Machine/Ops.lean ====
section
/-! DEFINITION. The named operations over registers and memory, the enabling conditions, and raising an exception
(00_scope.md R10; 20_memory.md; 60_exceptions.md R166, R167, R176). -/

namespace Sys2Proof.Machine

open Sys2Proof

/-! ## Outcomes and exceptions -/

/-- Go on with the value of a part of a step, or end as that part ended. -/
def andThen {α β : Type} (o : Host.Outcome α Fault Refusal) (f : α → Host.Outcome β Fault Refusal) :
    Host.Outcome β Fault Refusal :=
  match o with
  | .next a => f a
  | .fault r => .fault r
  | .refused r => .refused r

/-- `raise <E>` (60_exceptions.md R176): the outcome of the step is the fault. Taking an exception is terminal in this
spec (R171, D25; log entry 13): no handler is entered and no return exists. -/
def raise {α : Type} (f : Fault) : Host.Outcome α Fault Refusal := .fault f

/-- The state in which fault `f` leaves the machine (R176): the state before the step, but for the MXCSR flags of an
unmasked floating-point exception (R162). -/
def State.atFault (s : State) : Fault → State
  | .xm m => { s with mxcsr := m }
  | .udSimd m => { s with mxcsr := m }
  | _ => s

/-- The vector number of a memory fault of each class (R161). -/
def memoryFaultVector : MemoryFaultClass → Nat
  | .ss => 12
  | .gp => 13
  | .pf => 14
  | .ac => 17

/-- The vector number of a fault (R161). -/
def faultVector : Fault → Nat
  | .ud => 6
  | .nm => 7
  | .memory c => memoryFaultVector c
  | .ac => 17
  | .xm _ => 19
  | .udSimd _ => 6

/-! ## Enabling and parameters -/

/-- The record `Enabled` (60_exceptions.md R166). -/
structure Enabled where
  avx : Bool
  avx512 : Bool
  ts : Bool
  osxmmexcpt : Bool
  nodebug : Bool
  deriving DecidableEq, Repr

/-- `Enabled.avx` (R166): protected or 64-bit mode, CR4.OSXSAVE = 1 and XCR0[2:1] = 11b. -/
def State.enabledAvx (s : State) : Bool :=
  (s.params.mode == .prot32 || s.params.mode == .long64) && s.sys.cr4.getLsbD 18
    && s.sys.xcr0.extractLsb' 1 2 == 0b11#2

/-- `Enabled`, computed from the bits of 10_state.md R32 as R166 defines its fields. PRESUMED (log entry 2): RFLAGS.TF
is bit 8. -/
def State.enabled (s : State) : Enabled where
  avx := s.enabledAvx
  avx512 := s.enabledAvx && s.sys.xcr0.extractLsb' 5 3 == 0b111#3
  ts := s.sys.cr0.getLsbD 3
  osxmmexcpt := s.sys.cr4.getLsbD 10
  nodebug := !s.sys.rflags.getLsbD 8 && !s.sys.breakpoints

/-- `AC_CHECK` (00_scope.md R7): CR0.AM = 1, RFLAGS.AC = 1, CPL = 3. -/
def State.acCheck (s : State) : Bool :=
  s.sys.cr0.getLsbD 18 && s.sys.rflags.getLsbD 18 && s.sys.cpl == 3#2

/-- `MAX_VL` (00_scope.md R7; 92_eei_decisions.md D2). -/
def State.maxVl (s : State) : Nat := if s.params.hasAvx512f then 512 else 256

/-- The checks of a VEX form that read no data (41_vfnmsub_vex.md R130, step 1): the fault, if any. -/
def State.vexCheck (s : State) : Option Fault :=
  if !s.params.hasFma || !s.enabled.avx then some .ud
  else if s.enabled.ts then some .nm
  else none

/-- The checks of an EVEX form of `n` elements that read no data (42_vfnmsub_evex.md R140, step 1). -/
def State.evexCheck (s : State) (n : Nat) (k : WriteMask) : Option Fault :=
  if k.z && k.aaa == 0#3 then some .ud
  else if !s.params.hasAvx512f || (decide (n < 8) && !s.params.hasAvx512vl) || !s.enabled.avx512 then some .ud
  else if s.enabled.ts then some .nm
  else none

/-! ## Registers -/

/-- `V[r]` (00_scope.md R10). -/
def State.readV (s : State) (r : BitVec 5) : Vec := s.v[r.toNat]'r.isLt

/-- `V[r] <- v` (00_scope.md R10). -/
def State.writeV (s : State) (r : BitVec 5) (w : Vec) : State := { s with v := s.v.set r.toNat w r.isLt }

/-- `K[a]` (00_scope.md R10). -/
def State.readK (s : State) (a : BitVec 3) : Word64 := s.k[a.toNat]'a.isLt

/-- `x[g]` (00_scope.md R10); the address operations drop the high half in `Prot32`. -/
def State.readX (s : State) (g : BitVec 4) : Word64 := s.x[g.toNat]'g.isLt

/-- A register number of a VEX form as a number of the register file (10_state.md R21). -/
def vexReg (r : BitVec 4) : BitVec 5 := r.setWidth 5

/-! ## Program counter and addresses -/

/-- How many byte addresses there are: linear addresses of 64 bits in `Long64`, of 32 bits otherwise (20_memory.md
R48). -/
def addressSpace : CpuMode → Nat
  | .long64 => 2 ^ 64
  | _ => 2 ^ 32

/-- Address arithmetic is modulo 2^64 in `Long64`, modulo 2^32 otherwise (10_state.md R29; 30_encoding.md R77). -/
def wrapAddress (m : CpuMode) (a : Word64) : Word64 :=
  if m = .long64 then a else (a.setWidth 32).setWidth 64

/-- `pc + len` (10_state.md R29). -/
def State.nextPc (s : State) (len : Nat) : Word64 := wrapAddress s.params.mode (s.pc + BitVec.ofNat 64 len)

/-- `pc <- a`. -/
def State.setPc (s : State) (a : Word64) : State := { s with pc := a }

/-- MXCSR written whole. -/
def State.setMxcsr (s : State) (m : BitVec 32) : State := { s with mxcsr := m }

/-- The free values of one step are used up (log entry 6). -/
def State.nextDraw (s : State) : State := { s with draws := s.draws + 1 }

/-! ## Elements of a vector -/

/-- Element `j` of a vector: bits `64*j+63 : 64*j` (00_scope.md R9). -/
def lane (v : Vec) (j : Nat) : Elem := v.extractLsb' (64 * j) 64

/-- The vector whose elements are `es`, element 0 first, zero above them (`zext_MAX_VL`, R10). -/
def joinLanes : List Elem → Vec
  | [] => 0
  | e :: es => (joinLanes es <<< 64) ||| e.setWidth 512

/-! ## Memory -/

/-- The canonical form: addresses strictly rising, each a 64-bit address. -/
def Memory.wf : Memory → Bool
  | [] => true
  | [c] => decide (c.1 < 2 ^ 64)
  | c :: d :: m => decide (c.1 < d.1) && Memory.wf (d :: m)

/-- The byte that `Mem` gives to an address; `none` outside its domain, which is what every unlisted address is
(20_memory.md R48, R55; log entry 5). -/
def Memory.read : Memory → Nat → Option Byte
  | [], _ => none
  | c :: m, a => if c.1 = a then some c.2 else Memory.read m a

/-- `Mem` with the byte at `a` given the value `b`. No form writes memory (R40); this builds launch memories (D10). -/
def Memory.write (m : Memory) (a : Word64) (b : Byte) : Memory :=
  match m with
  | [] => [(a.toNat, b)]
  | c :: t =>
    if a.toNat < c.1 then (a.toNat, b) :: c :: t
    else if c.1 = a.toNat then (a.toNat, b) :: t
    else c :: Memory.write t a b

/-- The byte at `a`, where it can be read: in the domain of `Mem` and below the top of the address space (20_memory.md
R55). -/
def State.readByte (s : State) (a : Nat) : Option Byte :=
  if a < addressSpace s.params.mode then Memory.read s.mem a else none

/-- Bytes joined little-endian, the first least significant (20_memory.md R42). -/
def joinBytes : List Byte → Elem
  | [] => 0
  | b :: bs => (joinBytes bs <<< 8) ||| b.setWidth 64

/-- Whether the eight bytes of the element at `a` can all be read. -/
def State.elemReadable (s : State) (a : Nat) : Bool :=
  (List.range 8).all fun i => (s.readByte (a + i)).isSome

/-- `MemRead(a, 8)` (20_memory.md R42). Bytes that cannot be read stand as 0: they belong to elements that are never
used (R47, R55), since the meanings raise or refuse otherwise. -/
def State.readElem (s : State) (a : Nat) : Elem :=
  joinBytes ((List.range 8).map fun i => (s.readByte (a + i)).getD 0)

/-! ## Launch -/

/-- `w` with bit `i` set. -/
def setBit (w : Word64) (i : Nat) : Word64 := w ||| (1#64 <<< i)

/-- `w` with bit `i` clear. -/
def clearBit (w : Word64) (i : Nat) : Word64 := w &&& ~~~(1#64 <<< i)

/-- What software has done before a form can execute (70_reset_and_hazards.md R192, steps 1, 3, 4, 5, 6): 64-bit mode
entered (PRESUMED: CR0.PE is bit 0), CR4.OSXSAVE and CR4.OSXMMEXCPT set, XCR0 bits 1, 2, 5, 6, 7 set, CR0.TS clear. The
instructions that do it are out of scope; the model takes their combined effect (R191; log entry 1). -/
def State.boot (s : State) : State :=
  { s with
    params := { s.params with mode := .long64 }
    sys := { s.sys with
      cr0 := clearBit (setBit s.sys.cr0 0) 3
      cr4 := setBit (setBit s.sys.cr4 18) 10
      xcr0 := s.sys.xcr0 ||| 0xE6#64 } }

/-! ## INIT -/

/-- The state after the INIT signal, a warm reset (70_reset_and_hazards.md R190): the vector registers, the opmask
registers and MXCSR keep their values. PRESUMED (log entry 31): XCR0, the x87 words and memory keep theirs as well, and the
rest is as after reset; what the processor is (the parameters but MODE and the segment bases) does not change. When the
signal arrives is outside the machine. -/
def State.afterInit (s : State) : State :=
  { State.reset with
    v := s.v
    k := s.k
    mxcsr := s.mxcsr
    sys := { SysRegs.reset with xcr0 := s.sys.xcr0, x87Status := s.sys.x87Status, x87Control := s.sys.x87Control }
    params := { s.params with mode := .realAddress, segBase := Params.reset.segBase }
    mem := s.mem
    draws := s.draws }

end Sys2Proof.Machine
end

