-- ==== Sys2Proof/Machine/Flags.lean ====
section
/-! DEFINITION. MXCSR: its fields (10_state.md R27), the flags of a completed instruction (60_exceptions.md R164) and
of a floating-point fault (R162, R163). -/

namespace Sys2Proof.Machine

open Sys2Proof

/-- Invalid. -/
def flagIE : BitVec 6 := 0b000001#6
/-- Denormal. -/
def flagDE : BitVec 6 := 0b000010#6
/-- Divide-by-zero: no form ever sets it (10_state.md R26). -/
def flagZE : BitVec 6 := 0b000100#6
/-- Overflow. -/
def flagOE : BitVec 6 := 0b001000#6
/-- Underflow. -/
def flagUE : BitVec 6 := 0b010000#6
/-- Precision. -/
def flagPE : BitVec 6 := 0b100000#6

/-- MXCSR[5:0], the status flags. -/
def mxcsrFlags (m : BitVec 32) : BitVec 6 := m.extractLsb' 0 6

/-- MXCSR.DAZ, bit 6. -/
def mxcsrDaz (m : BitVec 32) : Bool := m.getLsbD 6

/-- MXCSR[12:7], the masks IM DM ZM OM UM PM in the order of the flags (1 = masked). -/
def mxcsrMasks (m : BitVec 32) : BitVec 6 := m.extractLsb' 7 6

/-- MXCSR[14:13], the page's `MXCSR.RM` (90_conflicts.md C5). -/
def mxcsrRc (m : BitVec 32) : BitVec 2 := m.extractLsb' 13 2

/-- MXCSR.FTZ, bit 15. -/
def mxcsrFtz (m : BitVec 32) : Bool := m.getLsbD 15

/-- `MXCSR[5:0] <- MXCSR[5:0] OR f` (60_exceptions.md R164). -/
def mxcsrOr (m : BitVec 32) (f : BitVec 6) : BitVec 32 := m ||| f.setWidth 32

/-- `MXCSR[5:0] <- f`, bits 31:6 unchanged. -/
def mxcsrWithFlags (m : BitVec 32) (f : BitVec 6) : BitVec 32 := m.extractLsb' 6 26 ++ f

/-- The union of the flags of the elements. -/
def unionFlags (fs : List (BitVec 6)) : BitVec 6 := fs.foldr (· ||| ·) 0

/-- The detected flags whose mask bit is 0 (60_exceptions.md R162). -/
def unmaskedOf (masks detected : BitVec 6) : BitVec 6 := detected &&& ~~~masks

/-- MXCSR[5:0] at an unmasked floating-point exception (R162, D23): from the free choice `r` among the detected flags,
a value between `old` and `old OR detected` that contains a detected unmasked flag. Where the choice contains none, the
detected unmasked flags are added. -/
def faultFlags (r old masks detected : BitVec 6) : BitVec 6 :=
  if (old ||| (detected &&& r)) &&& unmaskedOf masks detected = 0 then
    old ||| (detected &&& r) ||| unmaskedOf masks detected
  else old ||| (detected &&& r)

/-- The default instantiation of R162, in two phases: the pre-computation flags (IE, DE) alone where one of them is
unmasked, else all detected flags. It is one of the values `faultFlags` can take. -/
def twoPhaseFlags (old masks detected : BitVec 6) : BitVec 6 :=
  if unmaskedOf masks (detected &&& (flagIE ||| flagDE)) = 0 then old ||| detected
  else old ||| (detected &&& (flagIE ||| flagDE))

/-- The fault of an unmasked SIMD floating-point exception (R162, R163): #XM when CR4.OSXMMEXCPT = 1, else #UD, with
the same flags. -/
def State.simdFault (s : State) (masks detected : BitVec 6) : Fault :=
  let m := mxcsrWithFlags s.mxcsr
    (faultFlags (Config.faultFlags s.draws) (mxcsrFlags s.mxcsr) masks detected)
  if s.enabled.osxmmexcpt then .xm m else .udSimd m

end Sys2Proof.Machine
end

