-- ==== Sys2Proof/Machine/Lane.lean ====
section
/-! DEFINITION. The element operation `FNMSUB(rm, x, y, z) = RoundFPControl(-(x*y) - z)` (40_fnmsub_lane.md R100) and
its numerics (R103 to R115). The exact value is an integer number of units of 2^-2148, the least exponent that a
product of two doubles has, so nothing is rounded before the one rounding. -/

namespace Sys2Proof.Machine

open Sys2Proof

/-! ## Format (R103) -/

/-- The biased exponent `e`. -/
def expField (v : Elem) : Nat := (v.extractLsb' 52 11).toNat

/-- The fraction `f`. -/
def fracField (v : Elem) : Nat := (v.extractLsb' 0 52).toNat

/-- The sign `s`: true for negative. -/
def signBit (v : Elem) : Bool := v.getLsbD 63

def isZero (v : Elem) : Bool := expField v == 0 && fracField v == 0
def isDenormal (v : Elem) : Bool := expField v == 0 && fracField v != 0
def isInf (v : Elem) : Bool := expField v == 2047 && fracField v == 0
def isNaN (v : Elem) : Bool := expField v == 2047 && fracField v != 0
def isSNaN (v : Elem) : Bool := isNaN v && !v.getLsbD 51
def isQNaN (v : Elem) : Bool := isNaN v && v.getLsbD 51
/-- Zero, denormal or normal. -/
def isFinite (v : Elem) : Bool := expField v != 2047

/-- A finite value is `± significand * 2^(scaleField - 1075)`. -/
def significand (v : Elem) : Nat := if expField v = 0 then fracField v else 2 ^ 52 + fracField v

/-- The exponent of the units of the significand, biased by 1075; denormals share that of exponent field 1. -/
def scaleField (v : Elem) : Nat := max 1 (expField v)

/-- Zero of a sign. -/
def zeroOf (neg : Bool) : Elem := BitVec.ofBool neg ++ 0#63

/-- Infinity of a sign. -/
def infOf (neg : Bool) : Elem := BitVec.ofBool neg ++ 0x7FF#11 ++ 0#52

/-- `MAXF` of a sign: 7FEF_FFFF_FFFF_FFFFH in magnitude. -/
def maxfOf (neg : Bool) : Elem := BitVec.ofBool neg ++ 0x7FE#11 ++ BitVec.allOnes 52

/-- The QNaN floating-point indefinite. -/
def indefinite : Elem := 0xFFF8000000000000#64

/-- A QNaN with the sign and the 51 payload bits of `bits` (R108). -/
def qnanOf (bits : BitVec 52) : Elem :=
  bits.extractLsb' 51 1 ++ 0x7FF#11 ++ 1#1 ++ bits.extractLsb' 0 51

/-- A NaN quieted: bit 51 set, every other bit unchanged (R108). -/
def quiet (v : Elem) : Elem := v ||| 0x0008000000000000#64

/-- The default instantiation of R108: the first NaN in the order x, y, z, quieted. It is one of the values the draw
can give; the meanings use the draw. -/
def defaultNaN (x y z : Elem) : Elem := if isNaN x then quiet x else if isNaN y then quiet y else quiet z

/-! ## Rounding (R104) -/

inductive Rounding where
  | nearestEven | down | up | towardZero
  deriving DecidableEq, Repr

/-- The two-bit encoding, the same in `MXCSR.RM` and in `EVEX.RC`. -/
def roundingOf (b : BitVec 2) : Rounding :=
  if b = 0b00#2 then .nearestEven
  else if b = 0b01#2 then .down
  else if b = 0b10#2 then .up
  else .towardZero

/-- Whether a magnitude of `q` whole units of 2^d and a remainder `rem < 2^d` rounds to `q + 1` units. -/
def roundsAway (rm : Rounding) (neg : Bool) (q rem d : Nat) : Bool :=
  match rm with
  | .nearestEven => decide (2 ^ d < 2 * rem) || (decide (2 * rem = 2 ^ d) && q % 2 == 1)
  | .down => neg && rem != 0
  | .up => !neg && rem != 0
  | .towardZero => false

/-- The magnitude `n` of a value of sign `neg`, rounded to whole units of 2^d: how many units. -/
def roundUnits (rm : Rounding) (neg : Bool) (n d : Nat) : Nat :=
  if roundsAway rm neg (n / 2 ^ d) (n % 2 ^ d) d then n / 2 ^ d + 1 else n / 2 ^ d

/-- The number of bits of `n`. -/
def bitLength (n : Nat) : Nat := if n = 0 then 0 else Nat.log2 n + 1

/-- The magnitude `n` rounded to 53 significant bits with unbounded exponent (R105). -/
def round53 (rm : Rounding) (neg : Bool) (n : Nat) : Nat :=
  roundUnits rm neg n (bitLength n - 53) * 2 ^ (bitLength n - 53)

/-! ## Units of 2^-2148 -/

/-- `MAXF` = (2^53 - 1) * 2^971 in units of 2^-2148. -/
def maxFinite : Nat := (2 ^ 53 - 1) * 2 ^ 3119

/-- `MINN` = 2^-1022 in units of 2^-2148. -/
def minNormal : Nat := 2 ^ 1126

/-- The sign of `-(x*y)` (`sp`). -/
def productSign (x y : Elem) : Bool := !(signBit x ^^ signBit y)

/-- The magnitude of `x*y` in units of 2^-2148. -/
def productUnits (x y : Elem) : Nat := significand x * significand y * 2 ^ (scaleField x + scaleField y - 2)

/-- The magnitude of `z` in units of 2^-2148. -/
def addendUnits (z : Elem) : Nat := significand z * 2 ^ (scaleField z + 1073)

/-- `n` with a sign. -/
def signed (neg : Bool) (n : Nat) : Int := if neg then -(n : Int) else n

/-- `t = -(X*Y) - Z`, exact, in units of 2^-2148 (R105). -/
def exactValue (x y z : Elem) : Int := signed (productSign x y) (productUnits x y) + signed (!signBit z) (addendUnits z)

/-- The encoding of a normal value of magnitude `r`, at most 53 significant bits, between `MINN` and `MAXF`. -/
def packNormal (neg : Bool) (r : Nat) : Elem :=
  BitVec.ofBool neg ++ BitVec.ofNat 11 (bitLength r - 1126) ++ BitVec.ofNat 52 (r / 2 ^ (bitLength r - 53))

/-- The encoding of `d` units of 2^-1074, `d` at most 2^52: a zero, a denormal, or `MINN`. -/
def packTiny (neg : Bool) (d : Nat) : Elem := BitVec.ofBool neg ++ BitVec.ofNat 63 d

/-- The masked overflow result (R111). -/
def overflowResult (rm : Rounding) (neg : Bool) : Elem :=
  match rm, neg with
  | .nearestEven, _ => infOf neg
  | .down, false => maxfOf neg
  | .down, true => infOf neg
  | .up, false => infOf neg
  | .up, true => maxfOf neg
  | .towardZero, _ => maxfOf neg

/-! ## One element -/

/-- What `fnmsub64` answers (R116). -/
structure LaneResult where
  value : Elem
  flags : BitVec 6
  unmasked : Bool
  deriving DecidableEq, Repr

/-- A result with its detected flags; `unmasked` where one of them has mask bit 0 (60_exceptions.md R162). -/
def laneResult (masks : BitVec 6) (v : Elem) (f : BitVec 6) : LaneResult :=
  { value := v, flags := f, unmasked := unmaskedOf masks f != 0 }

/-- Underflow (R112), for a tiny value of magnitude `n`. `um` is the mask bit UM. With UM = 0 the value is never
delivered, and Underflow is detected whether or not the value is exact. -/
def tinyResult (rm : Rounding) (ftz um neg : Bool) (n : Nat) : Elem × BitVec 6 :=
  if um && ftz then (zeroOf neg, flagUE ||| flagPE)
  else
    (packTiny neg (roundUnits rm neg n 1074),
      if n % 2 ^ 1074 = 0 then (if um then 0 else flagUE) else flagUE ||| flagPE)

/-- A non-zero exact value of sign `neg` and magnitude `n` rounded once (R105), with overflow (R111), underflow (R112)
and precision (R113). -/
def roundResult (rm : Rounding) (ftz um neg : Bool) (n : Nat) : Elem × BitVec 6 :=
  if maxFinite < round53 rm neg n then (overflowResult rm neg, flagOE ||| flagPE)
  else if round53 rm neg n < minNormal then tinyResult rm ftz um neg n
  else (packNormal neg (round53 rm neg n), if round53 rm neg n = n then 0 else flagPE)

/-- An exact zero (R106): the sign of both terms where the product is zero and they agree, else by rounding mode. -/
def zeroResult (rm : Rounding) (x y z : Elem) : Elem :=
  if (isZero x || isZero y) && productSign x y == !signBit z then zeroOf (productSign x y)
  else zeroOf (rm == .down)

/-- `-v`: the sign flipped, every other bit unchanged (R106). -/
def negated (v : Elem) : Elem := v ^^^ 0x8000000000000000#64

/-- Invalid without a NaN operand (R109). -/
def invalidOperation (x y z : Elem) : Bool :=
  (isInf x && isZero y) || (isZero x && isInf y) ||
    ((isInf x || isInf y) && isInf z && productSign x y != !signBit z)

/-- The pre-step of R110: with DAZ a denormal operand becomes a zero of its sign. -/
def dazOperand (daz : Bool) (v : Elem) : Elem := if daz && isDenormal v then zeroOf (signBit v) else v

/-- The flag of R110. -/
def denormalFlag (x y z : Elem) : BitVec 6 :=
  if isDenormal x || isDenormal y || isDenormal z then flagDE else 0

/-- Value and detected flags of one element, the DAZ step done; the cases in the order of 40_fnmsub_lane.md section 3.
R106 stands before R105, so that with a zero product and a non-zero `z` the result is `-z` without a further flag, be `z`
denormal or not (DEDUCED, log entry 14). -/
def fnmsubCases (nan : BitVec 52) (rm : Rounding) (ftz um : Bool) (x y z : Elem) : Elem × BitVec 6 :=
  if isNaN x || isNaN y || isNaN z then
    (qnanOf nan, if isSNaN x || isSNaN y || isSNaN z then flagIE else 0)
  else if invalidOperation x y z then (indefinite, flagIE)
  else if isInf x || isInf y then (infOf (productSign x y), denormalFlag x y z)
  else if isInf z then (infOf (!signBit z), denormalFlag x y z)
  else if exactValue x y z = 0 then (zeroResult rm x y z, denormalFlag x y z)
  else if isZero x || isZero y then (negated z, denormalFlag x y z)
  else
    let r := roundResult rm ftz um (decide (exactValue x y z < 0)) (exactValue x y z).natAbs
    (r.1, denormalFlag x y z ||| r.2)

/-- `fnmsub64` (40_fnmsub_lane.md R116), the default instantiation but for the QNaN of a NaN operand, whose sign and
payload are the free value `nan` (R108, D18). -/
def fnmsub64 (nan : BitVec 52) (rm : Rounding) (daz ftz : Bool) (masks : BitVec 6) (x y z : Elem) : LaneResult :=
  let r := fnmsubCases nan rm ftz (masks.getLsbD 4) (dazOperand daz x) (dazOperand daz y) (dazOperand daz z)
  laneResult masks r.1 r.2

/-- The roles of the operands (40_fnmsub_lane.md R101): `a`, `b`, `c` are elements of operands 1, 2, 3. -/
def roles (o : FmaOrder) (a b c : Elem) : Elem × Elem × Elem :=
  match o with
  | .o132 => (a, c, b)
  | .o213 => (b, a, c)
  | .o231 => (b, c, a)

end Sys2Proof.Machine
end

