-- ==== Sys2Proof/Machine/Operands.lean ====
section
/-! DEFINITION. Operand 3 and the write mask: effective addresses (30_encoding.md R76, R77, R78), full-width and
broadcast reads with fault suppression and alignment checking (20_memory.md R41 to R47, R55), and the mask (R72,
42_vfnmsub_evex.md R141). -/

namespace Sys2Proof.Machine

open Sys2Proof

/-! ## Effective address -/

/-- A displacement as a 64-bit number; disp8 is scaled by `n` (R78: 1 under VEX). -/
def dispValue (n : Nat) : Disp → Word64
  | .none => 0
  | .d8 b => b.signExtend 64 * BitVec.ofNat 64 n
  | .d32 w => w.signExtend 64

/-- `x[X ++ index] << scale`, omitted for index number 4 (R76). -/
def State.indexTerm (s : State) (scale : BitVec 2) (index : BitVec 4) : Word64 :=
  if index = 0b0100#4 then 0 else s.readX index <<< scale.toNat

/-- The address expression of R76, `len` being the length of the instruction. -/
def State.addressExpr (s : State) (len n : Nat) : Addr → Word64
  | .based base d => s.readX base + dispValue n d
  | .relative d => if s.params.mode = .long64 then s.nextPc len + d.signExtend 64 else d.signExtend 64
  | .sib scale index base d => s.readX base + s.indexTerm scale index + dispValue n d
  | .sibNoBase scale index d => s.indexTerm scale index + d.signExtend 64

/-- The base register is ESP or EBP, so that the default segment of `Prot32` is SS (R77). -/
def Addr.stackBase : Addr → Bool
  | .based base _ => base == 4#4 || base == 5#4
  | .sib _ _ base _ => base == 4#4 || base == 5#4
  | _ => false

/-- The place of a segment's base in `Params.segBase`. -/
def segIndex : Seg → Fin 6
  | .es => 0
  | .cs => 1
  | .ss => 2
  | .ds => 3
  | .fs => 4
  | .gs => 5

/-- `segbase` (R77): in `Long64` 0 but for FS and GS; otherwise that of the override, else SS or DS. -/
def State.segmentBase (s : State) (seg : Option Seg) (a : Addr) : Word64 :=
  if s.params.mode = .long64 then
    match seg with
    | some .fs => s.params.segBase.get (segIndex .fs)
    | some .gs => s.params.segBase.get (segIndex .gs)
    | _ => 0
  else s.params.segBase.get (segIndex (seg.getD (if Addr.stackBase a then .ss else .ds)))

/-- `ea` (R77): modulo 2^64 in `Long64`, 2^32 otherwise (log entry 15). `n` scales a disp8 (R78). -/
def State.effectiveAddress (s : State) (seg : Option Seg) (a : Addr) (len n : Nat) : Word64 :=
  wrapAddress s.params.mode (s.segmentBase seg a + wrapAddress s.params.mode (s.addressExpr len n a))

/-! ## The write mask -/

/-- `k1[j] OR *no writemask*` (R141). -/
def State.laneActive (s : State) (k : WriteMask) (j : Nat) : Bool :=
  k.aaa == 0#3 || (s.readK k.aaa).getLsbD j

/-! ## Reading operand 3 -/

/-- A full-width read of `n` elements at `ea` (R41), `act` saying which are computed (R47): a memory fault where a
computed element has an unreadable byte, a refusal or nothing where only others have one, and under alignment checking
a draw between #AC and the read for an address that is not a multiple of the operand's size (R44), also where the faults
of masked-off bytes are suppressed (DESIGN CHOICE, safe, log entry 33). DESIGN CHOICE (safe, log entry 34): the refusal
goes before the alignment check. -/
def State.loadFull (s : State) (ea : Word64) (n : Nat) (act : Nat → Bool) : Host.Outcome Vec Fault Refusal :=
  if (List.range n).any fun j => act j && !s.elemReadable (ea.toNat + 8 * j) then
    raise (.memory (Config.memoryFaultClass s.draws))
  else if ((List.range n).any fun j => !s.elemReadable (ea.toNat + 8 * j)) && !s.params.faultSuppression then
    .refused .maskedOffFault
  else if s.acCheck && ea.toNat % (8 * n) != 0 && Config.alignmentFaults s.draws then raise .ac
  else .next (joinLanes ((List.range n).map fun j => s.readElem (ea.toNat + 8 * j)))

/-- A broadcast read (R43, 42_vfnmsub_evex.md R153): eight bytes at `ea`, used for each of `n` elements. Under alignment
checking #AC for an address that is not a multiple of 8, whatever the mask (R44, D7; DEDUCED where faults
are suppressed, log entry 32). DESIGN CHOICE (safe, log entry 34): the refusal goes before the alignment check. -/
def State.loadBroadcast (s : State) (ea : Word64) (n : Nat) (act : Nat → Bool) : Host.Outcome Vec Fault Refusal :=
  if (List.range n).any act && !s.elemReadable ea.toNat then
    raise (.memory (Config.memoryFaultClass s.draws))
  else if !s.elemReadable ea.toNat && !s.params.faultSuppression then .refused .maskedOffFault
  else if s.acCheck && ea.toNat % 8 != 0 then raise .ac
  else .next (joinLanes (List.replicate n (s.readElem ea.toNat)))

/-- An operand of the 128- and 256-bit forms as one of the 512-bit forms, without embedded rounding. -/
def evexOperandEr : EvexOperand → EvexOperandEr
  | .reg r => .reg r
  | .mem a => .mem a
  | .bcst a => .bcst a

/-- `EVEX.RC` where the operand asks for embedded rounding (30_encoding.md R75). -/
def embeddedRounding : EvexOperandEr → Option (BitVec 2)
  | .regEr rc _ => some rc
  | _ => none

end Sys2Proof.Machine
end

