-- ==== Sys2Proof/Machine/Configuration.lean ====
section
/-! DEFINITION. The two functions that the spec makes configuration fields with a default (00_scope.md R7; 92_eei_decisions.md
D14, D17): the arithmetic of an element and the effective address. -/

namespace Sys2Proof.Machine

open Sys2Proof

/-- What an instantiation of the model fixes for all instructions, elements and states. -/
structure Configuration where
  /-- `fnmsub64` (40_fnmsub_lane.md R116): rounding mode, DAZ, FTZ, masks, `x`, `y`, `z` to a result, its flags and whether
  one of them is unmasked. The first argument is the draw for the QNaN of a NaN operand, which R116 leaves open. -/
  fnmsub64 : BitVec 52 → Rounding → Bool → Bool → BitVec 6 → Elem → Elem → Elem → LaneResult
  /-- `EA` (30_encoding.md R77): the address of a memory operand of an instruction of the given length, the last argument
  scaling a disp8 (R78). -/
  ea : State → Option Seg → Addr → Nat → Nat → Word64

/-- The default instantiation: 40_fnmsub_lane.md R105 to R115 and 30_encoding.md R76 to R78. The instructions of the
machine use it (log entry 26). -/
def defaultConfiguration : Configuration where
  fnmsub64 := Sys2Proof.Machine.fnmsub64
  ea := State.effectiveAddress

end Sys2Proof.Machine
end

