-- ==== Sys2Proof/Machine/Fnmsub.lean ====
section
/-! DEFINITION. The two templates all fifteen instructions share: `VEX_FNMSUB` (41_vfnmsub_vex.md R130) and
`EVEX_FNMSUB` (42_vfnmsub_evex.md R140). -/

namespace Sys2Proof.Machine

open Sys2Proof

/-- Operand 3 of a VEX form of `n` elements (41_vfnmsub_vex.md R130, step 2). -/
def State.vexOperand3 (s : State) (c : Configuration) (seg : Option Seg) (n len : Nat) :
    VexOperand → Host.Outcome Vec Fault Refusal
  | .reg r => .next (s.readV (vexReg r))
  | .mem a => s.loadFull (c.ea s seg a len 1) n fun _ => true

/-- Operand 3 of an EVEX form of `n` elements (42_vfnmsub_evex.md R140, step 2); disp8 is scaled by the operand's size
(30_encoding.md R78). -/
def State.evexOperand3 (s : State) (c : Configuration) (seg : Option Seg) (n len : Nat) (k : WriteMask) :
    EvexOperandEr → Host.Outcome Vec Fault Refusal
  | .reg r => .next (s.readV r)
  | .regEr _ r => .next (s.readV r)
  | .mem a => s.loadFull (c.ea s seg a len (8 * n)) n (s.laneActive k)
  | .bcst a => s.loadBroadcast (c.ea s seg a len 8) n (s.laneActive k)

/-- Element `j` of a form (R130 and R140, step 3) whose operands hold `va`, `vb`, `vc`: computed where `act`, else kept
(merging) or zero (`zeroing`), with no flag (R142). -/
def State.computeLane (s : State) (c : Configuration) (o : FmaOrder) (rm : Rounding) (masks : BitVec 6) (act :
    Nat → Bool)
    (zeroing : Bool) (va vb vc : Vec) (j : Nat) : LaneResult :=
  if act j then
    c.fnmsub64 (Config.nanBits s.draws j) rm (mxcsrDaz s.mxcsr) (mxcsrFtz s.mxcsr) masks
      (roles o (lane va j) (lane vb j) (lane vc j)).1 (roles o (lane va j) (lane vb j) (lane vc j)).2.1
      (roles o (lane va j) (lane vb j) (lane vc j)).2.2
  else { value := if zeroing then 0 else lane va j, flags := 0, unmasked := false }

/-- The flags that the elements detect. -/
def laneFlags (rs : List LaneResult) : BitVec 6 := unionFlags (rs.map LaneResult.flags)

/-- The state a completed form leaves (R130 and R140, step 5): flags, unless suppressed, the destination with zeros
above the elements (R138, R155), and `pc`. -/
def State.completed (s : State) (dest : BitVec 5) (suppress : Bool) (rs : List LaneResult) (len : Nat) : State :=
  (((s.setMxcsr (if suppress then s.mxcsr else mxcsrOr s.mxcsr (laneFlags rs))).writeV dest
    (joinLanes (rs.map LaneResult.value))).setPc (s.nextPc len)).nextDraw

/-- Steps 4 and 5 of R130 and R140: an unmasked exception in any element is raised and nothing is written (60_exceptions.md
R162); else the form completes. -/
def State.commit (s : State) (dest : BitVec 5) (masks : BitVec 6) (suppress : Bool) (rs : List LaneResult)
    (len : Nat) : Host.Outcome State Fault Refusal :=
  if rs.any LaneResult.unmasked then raise (s.simdFault masks (laneFlags rs))
  else .next (s.completed dest suppress rs len)

/-- `VEX_FNMSUB` (R130) with `n` elements. -/
def vexFnmsub (c : Configuration) (o : FmaOrder) (n : Nat) (seg : Option Seg) (dest src2 : BitVec 4) (src3 : VexOperand)
    (s : State) :
    Host.Outcome State Fault Refusal :=
  match s.vexCheck with
  | some f => raise f
  | none =>
    andThen (s.vexOperand3 c seg n (vexLength seg src3.length) src3) fun vc =>
      s.commit (vexReg dest) (mxcsrMasks s.mxcsr) false
        ((List.range n).map
          (s.computeLane c o (roundingOf (mxcsrRc s.mxcsr)) (mxcsrMasks s.mxcsr) (fun _ => true) false
            (s.readV (vexReg dest)) (s.readV (vexReg src2)) vc))
        (vexLength seg src3.length)

/-- The rounding mode of an EVEX form (R140 step 3, R152). -/
def State.evexRounding (s : State) (src3 : EvexOperandEr) : Rounding :=
  roundingOf ((embeddedRounding src3).getD (mxcsrRc s.mxcsr))

/-- The exception masks of an EVEX form: embedded rounding implies that all exceptions are masked (R140 step 3, R152;
60_exceptions.md R165). -/
def State.evexMasks (s : State) (src3 : EvexOperandEr) : BitVec 6 :=
  if (embeddedRounding src3).isSome then BitVec.allOnes 6 else mxcsrMasks s.mxcsr

/-- `EVEX_FNMSUB` (R140) with `n` elements. -/
def evexFnmsub (c : Configuration) (o : FmaOrder) (n : Nat) (seg : Option Seg) (dest src2 : BitVec 5) (k : WriteMask)
    (src3 : EvexOperandEr) (s : State) : Host.Outcome State Fault Refusal :=
  match s.evexCheck n k with
  | some f => raise f
  | none =>
    andThen (s.evexOperand3 c seg n (evexLength seg src3.length) k src3) fun vc =>
      s.commit dest (s.evexMasks src3) (embeddedRounding src3).isSome
        ((List.range n).map
          (s.computeLane c o (s.evexRounding src3) (s.evexMasks src3) (s.laneActive k) k.z
            (s.readV dest) (s.readV src2) vc))
        (evexLength seg src3.length)

end Sys2Proof.Machine
end

