-- ==== Sys2Proof/Machine/Evex.lean ====
section
/-! DEFINITION. The nine EVEX-encoded instructions (42_vfnmsub_evex.md). -/

namespace Sys2Proof.Machine

open Sys2Proof

/-- In the instantiation `c`: VFNMSUB132PD xmm1 (write mask, zeroing), xmm2, xmm3/m128/m64bcst (EVEX.128):
`-(DEST*SRC3) - SRC2` per element
(42_vfnmsub_evex.md R143). -/
def execVfnmsub132pdEvex128With (c : Configuration) (seg : Option Seg) (dest src2 : BitVec 5)
    (mask : WriteMask) (src3 : EvexOperand) (s : State) :
    Host.Outcome State Fault Refusal :=
  evexFnmsub c .o132 2 seg dest src2 mask (evexOperandEr src3) s

/-- `execVfnmsub132pdEvex128With` in the default instantiation. -/
def execVfnmsub132pdEvex128 (seg : Option Seg) (dest src2 : BitVec 5)
    (mask : WriteMask) (src3 : EvexOperand) (s : State) :
    Host.Outcome State Fault Refusal :=
  execVfnmsub132pdEvex128With defaultConfiguration seg dest src2 mask src3 s

/-- In the instantiation `c`: VFNMSUB213PD xmm1 (write mask, zeroing), xmm2, xmm3/m128/m64bcst (EVEX.128):
`-(SRC2*DEST) - SRC3` per element
(42_vfnmsub_evex.md R144). -/
def execVfnmsub213pdEvex128With (c : Configuration) (seg : Option Seg) (dest src2 : BitVec 5)
    (mask : WriteMask) (src3 : EvexOperand) (s : State) :
    Host.Outcome State Fault Refusal :=
  evexFnmsub c .o213 2 seg dest src2 mask (evexOperandEr src3) s

/-- `execVfnmsub213pdEvex128With` in the default instantiation. -/
def execVfnmsub213pdEvex128 (seg : Option Seg) (dest src2 : BitVec 5)
    (mask : WriteMask) (src3 : EvexOperand) (s : State) :
    Host.Outcome State Fault Refusal :=
  execVfnmsub213pdEvex128With defaultConfiguration seg dest src2 mask src3 s

/-- In the instantiation `c`: VFNMSUB231PD xmm1 (write mask, zeroing), xmm2, xmm3/m128/m64bcst (EVEX.128):
`-(SRC2*SRC3) - DEST` per element
(42_vfnmsub_evex.md R145). -/
def execVfnmsub231pdEvex128With (c : Configuration) (seg : Option Seg) (dest src2 : BitVec 5)
    (mask : WriteMask) (src3 : EvexOperand) (s : State) :
    Host.Outcome State Fault Refusal :=
  evexFnmsub c .o231 2 seg dest src2 mask (evexOperandEr src3) s

/-- `execVfnmsub231pdEvex128With` in the default instantiation. -/
def execVfnmsub231pdEvex128 (seg : Option Seg) (dest src2 : BitVec 5)
    (mask : WriteMask) (src3 : EvexOperand) (s : State) :
    Host.Outcome State Fault Refusal :=
  execVfnmsub231pdEvex128With defaultConfiguration seg dest src2 mask src3 s

/-- In the instantiation `c`: VFNMSUB132PD ymm1 (write mask, zeroing), ymm2, ymm3/m256/m64bcst (EVEX.256):
`-(DEST*SRC3) - SRC2` per element
(42_vfnmsub_evex.md R146). -/
def execVfnmsub132pdEvex256With (c : Configuration) (seg : Option Seg) (dest src2 : BitVec 5)
    (mask : WriteMask) (src3 : EvexOperand) (s : State) :
    Host.Outcome State Fault Refusal :=
  evexFnmsub c .o132 4 seg dest src2 mask (evexOperandEr src3) s

/-- `execVfnmsub132pdEvex256With` in the default instantiation. -/
def execVfnmsub132pdEvex256 (seg : Option Seg) (dest src2 : BitVec 5)
    (mask : WriteMask) (src3 : EvexOperand) (s : State) :
    Host.Outcome State Fault Refusal :=
  execVfnmsub132pdEvex256With defaultConfiguration seg dest src2 mask src3 s

/-- In the instantiation `c`: VFNMSUB213PD ymm1 (write mask, zeroing), ymm2, ymm3/m256/m64bcst (EVEX.256):
`-(SRC2*DEST) - SRC3` per element
(42_vfnmsub_evex.md R147). -/
def execVfnmsub213pdEvex256With (c : Configuration) (seg : Option Seg) (dest src2 : BitVec 5)
    (mask : WriteMask) (src3 : EvexOperand) (s : State) :
    Host.Outcome State Fault Refusal :=
  evexFnmsub c .o213 4 seg dest src2 mask (evexOperandEr src3) s

/-- `execVfnmsub213pdEvex256With` in the default instantiation. -/
def execVfnmsub213pdEvex256 (seg : Option Seg) (dest src2 : BitVec 5)
    (mask : WriteMask) (src3 : EvexOperand) (s : State) :
    Host.Outcome State Fault Refusal :=
  execVfnmsub213pdEvex256With defaultConfiguration seg dest src2 mask src3 s

/-- In the instantiation `c`: VFNMSUB231PD ymm1 (write mask, zeroing), ymm2, ymm3/m256/m64bcst (EVEX.256):
`-(SRC2*SRC3) - DEST` per element
(42_vfnmsub_evex.md R148). -/
def execVfnmsub231pdEvex256With (c : Configuration) (seg : Option Seg) (dest src2 : BitVec 5)
    (mask : WriteMask) (src3 : EvexOperand) (s : State) :
    Host.Outcome State Fault Refusal :=
  evexFnmsub c .o231 4 seg dest src2 mask (evexOperandEr src3) s

/-- `execVfnmsub231pdEvex256With` in the default instantiation. -/
def execVfnmsub231pdEvex256 (seg : Option Seg) (dest src2 : BitVec 5)
    (mask : WriteMask) (src3 : EvexOperand) (s : State) :
    Host.Outcome State Fault Refusal :=
  execVfnmsub231pdEvex256With defaultConfiguration seg dest src2 mask src3 s

/-- In the instantiation `c`: VFNMSUB132PD zmm1 (write mask, zeroing), zmm2, zmm3/m512/m64bcst with embedded
rounding (EVEX.512): `-(DEST*SRC3) - SRC2` per element
(42_vfnmsub_evex.md R149). -/
def execVfnmsub132pdEvex512With (c : Configuration) (seg : Option Seg) (dest src2 : BitVec 5)
    (mask : WriteMask) (src3 : EvexOperandEr) (s : State) :
    Host.Outcome State Fault Refusal :=
  evexFnmsub c .o132 8 seg dest src2 mask src3 s

/-- `execVfnmsub132pdEvex512With` in the default instantiation. -/
def execVfnmsub132pdEvex512 (seg : Option Seg) (dest src2 : BitVec 5)
    (mask : WriteMask) (src3 : EvexOperandEr) (s : State) :
    Host.Outcome State Fault Refusal :=
  execVfnmsub132pdEvex512With defaultConfiguration seg dest src2 mask src3 s

/-- In the instantiation `c`: VFNMSUB213PD zmm1 (write mask, zeroing), zmm2, zmm3/m512/m64bcst with embedded
rounding (EVEX.512): `-(SRC2*DEST) - SRC3` per element
(42_vfnmsub_evex.md R150). -/
def execVfnmsub213pdEvex512With (c : Configuration) (seg : Option Seg) (dest src2 : BitVec 5)
    (mask : WriteMask) (src3 : EvexOperandEr) (s : State) :
    Host.Outcome State Fault Refusal :=
  evexFnmsub c .o213 8 seg dest src2 mask src3 s

/-- `execVfnmsub213pdEvex512With` in the default instantiation. -/
def execVfnmsub213pdEvex512 (seg : Option Seg) (dest src2 : BitVec 5)
    (mask : WriteMask) (src3 : EvexOperandEr) (s : State) :
    Host.Outcome State Fault Refusal :=
  execVfnmsub213pdEvex512With defaultConfiguration seg dest src2 mask src3 s

/-- In the instantiation `c`: VFNMSUB231PD zmm1 (write mask, zeroing), zmm2, zmm3/m512/m64bcst with embedded
rounding (EVEX.512): `-(SRC2*SRC3) - DEST` per element
(42_vfnmsub_evex.md R151). -/
def execVfnmsub231pdEvex512With (c : Configuration) (seg : Option Seg) (dest src2 : BitVec 5)
    (mask : WriteMask) (src3 : EvexOperandEr) (s : State) :
    Host.Outcome State Fault Refusal :=
  evexFnmsub c .o231 8 seg dest src2 mask src3 s

/-- `execVfnmsub231pdEvex512With` in the default instantiation. -/
def execVfnmsub231pdEvex512 (seg : Option Seg) (dest src2 : BitVec 5)
    (mask : WriteMask) (src3 : EvexOperandEr) (s : State) :
    Host.Outcome State Fault Refusal :=
  execVfnmsub231pdEvex512With defaultConfiguration seg dest src2 mask src3 s

end Sys2Proof.Machine
end

