-- ==== Sys2Proof/Machine/Vex.lean ====
section
/-! DEFINITION. The six VEX-encoded instructions (41_vfnmsub_vex.md). -/

namespace Sys2Proof.Machine

open Sys2Proof

/-- In the instantiation `c`: VFNMSUB132PD xmm1, xmm2, xmm3/m128 (VEX.128):
`-(DEST*SRC3) - SRC2` per element (41_vfnmsub_vex.md R131). -/
def execVfnmsub132pdVex128With (c : Configuration) (seg : Option Seg) (dest src2 : BitVec 4) (src3 : VexOperand)
    (s : State) : Host.Outcome State Fault Refusal :=
  vexFnmsub c .o132 2 seg dest src2 src3 s

/-- `execVfnmsub132pdVex128With` in the default instantiation. -/
def execVfnmsub132pdVex128 (seg : Option Seg) (dest src2 : BitVec 4) (src3 : VexOperand) (s : State) :
    Host.Outcome State Fault Refusal :=
  execVfnmsub132pdVex128With defaultConfiguration seg dest src2 src3 s

/-- In the instantiation `c`: VFNMSUB213PD xmm1, xmm2, xmm3/m128 (VEX.128):
`-(SRC2*DEST) - SRC3` per element (41_vfnmsub_vex.md R132). -/
def execVfnmsub213pdVex128With (c : Configuration) (seg : Option Seg) (dest src2 : BitVec 4) (src3 : VexOperand)
    (s : State) : Host.Outcome State Fault Refusal :=
  vexFnmsub c .o213 2 seg dest src2 src3 s

/-- `execVfnmsub213pdVex128With` in the default instantiation. -/
def execVfnmsub213pdVex128 (seg : Option Seg) (dest src2 : BitVec 4) (src3 : VexOperand) (s : State) :
    Host.Outcome State Fault Refusal :=
  execVfnmsub213pdVex128With defaultConfiguration seg dest src2 src3 s

/-- In the instantiation `c`: VFNMSUB231PD xmm1, xmm2, xmm3/m128 (VEX.128):
`-(SRC2*SRC3) - DEST` per element (41_vfnmsub_vex.md R133). -/
def execVfnmsub231pdVex128With (c : Configuration) (seg : Option Seg) (dest src2 : BitVec 4) (src3 : VexOperand)
    (s : State) : Host.Outcome State Fault Refusal :=
  vexFnmsub c .o231 2 seg dest src2 src3 s

/-- `execVfnmsub231pdVex128With` in the default instantiation. -/
def execVfnmsub231pdVex128 (seg : Option Seg) (dest src2 : BitVec 4) (src3 : VexOperand) (s : State) :
    Host.Outcome State Fault Refusal :=
  execVfnmsub231pdVex128With defaultConfiguration seg dest src2 src3 s

/-- In the instantiation `c`: VFNMSUB132PD ymm1, ymm2, ymm3/m256 (VEX.256):
`-(DEST*SRC3) - SRC2` per element (41_vfnmsub_vex.md R134). -/
def execVfnmsub132pdVex256With (c : Configuration) (seg : Option Seg) (dest src2 : BitVec 4) (src3 : VexOperand)
    (s : State) : Host.Outcome State Fault Refusal :=
  vexFnmsub c .o132 4 seg dest src2 src3 s

/-- `execVfnmsub132pdVex256With` in the default instantiation. -/
def execVfnmsub132pdVex256 (seg : Option Seg) (dest src2 : BitVec 4) (src3 : VexOperand) (s : State) :
    Host.Outcome State Fault Refusal :=
  execVfnmsub132pdVex256With defaultConfiguration seg dest src2 src3 s

/-- In the instantiation `c`: VFNMSUB213PD ymm1, ymm2, ymm3/m256 (VEX.256):
`-(SRC2*DEST) - SRC3` per element (41_vfnmsub_vex.md R135). -/
def execVfnmsub213pdVex256With (c : Configuration) (seg : Option Seg) (dest src2 : BitVec 4) (src3 : VexOperand)
    (s : State) : Host.Outcome State Fault Refusal :=
  vexFnmsub c .o213 4 seg dest src2 src3 s

/-- `execVfnmsub213pdVex256With` in the default instantiation. -/
def execVfnmsub213pdVex256 (seg : Option Seg) (dest src2 : BitVec 4) (src3 : VexOperand) (s : State) :
    Host.Outcome State Fault Refusal :=
  execVfnmsub213pdVex256With defaultConfiguration seg dest src2 src3 s

/-- In the instantiation `c`: VFNMSUB231PD ymm1, ymm2, ymm3/m256 (VEX.256):
`-(SRC2*SRC3) - DEST` per element (41_vfnmsub_vex.md R136). -/
def execVfnmsub231pdVex256With (c : Configuration) (seg : Option Seg) (dest src2 : BitVec 4) (src3 : VexOperand)
    (s : State) : Host.Outcome State Fault Refusal :=
  vexFnmsub c .o231 4 seg dest src2 src3 s

/-- `execVfnmsub231pdVex256With` in the default instantiation. -/
def execVfnmsub231pdVex256 (seg : Option Seg) (dest src2 : BitVec 4) (src3 : VexOperand) (s : State) :
    Host.Outcome State Fault Refusal :=
  execVfnmsub231pdVex256With defaultConfiguration seg dest src2 src3 s

end Sys2Proof.Machine
end

