-- ==== Sys2Proof/Machine/Dispatch.lean ====
section
/-! DEFINITION. One arm per instruction. -/

namespace Sys2Proof.Machine

open Sys2Proof

/-- What an instruction does in a state. -/
def exec (i : Instr) (s : State) : Host.Outcome State Fault Refusal :=
  match i with
  | .vfnmsub132pdVex128 seg dest src2 src3 => Sys2Proof.Machine.execVfnmsub132pdVex128 seg dest src2 src3 s
  | .vfnmsub213pdVex128 seg dest src2 src3 => Sys2Proof.Machine.execVfnmsub213pdVex128 seg dest src2 src3 s
  | .vfnmsub231pdVex128 seg dest src2 src3 => Sys2Proof.Machine.execVfnmsub231pdVex128 seg dest src2 src3 s
  | .vfnmsub132pdVex256 seg dest src2 src3 => Sys2Proof.Machine.execVfnmsub132pdVex256 seg dest src2 src3 s
  | .vfnmsub213pdVex256 seg dest src2 src3 => Sys2Proof.Machine.execVfnmsub213pdVex256 seg dest src2 src3 s
  | .vfnmsub231pdVex256 seg dest src2 src3 => Sys2Proof.Machine.execVfnmsub231pdVex256 seg dest src2 src3 s
  | .vfnmsub132pdEvex128 seg dest src2 mask src3 => Sys2Proof.Machine.execVfnmsub132pdEvex128 seg dest src2 mask src3 s
  | .vfnmsub213pdEvex128 seg dest src2 mask src3 => Sys2Proof.Machine.execVfnmsub213pdEvex128 seg dest src2 mask src3 s
  | .vfnmsub231pdEvex128 seg dest src2 mask src3 => Sys2Proof.Machine.execVfnmsub231pdEvex128 seg dest src2 mask src3 s
  | .vfnmsub132pdEvex256 seg dest src2 mask src3 => Sys2Proof.Machine.execVfnmsub132pdEvex256 seg dest src2 mask src3 s
  | .vfnmsub213pdEvex256 seg dest src2 mask src3 => Sys2Proof.Machine.execVfnmsub213pdEvex256 seg dest src2 mask src3 s
  | .vfnmsub231pdEvex256 seg dest src2 mask src3 => Sys2Proof.Machine.execVfnmsub231pdEvex256 seg dest src2 mask src3 s
  | .vfnmsub132pdEvex512 seg dest src2 mask src3 => Sys2Proof.Machine.execVfnmsub132pdEvex512 seg dest src2 mask src3 s
  | .vfnmsub213pdEvex512 seg dest src2 mask src3 => Sys2Proof.Machine.execVfnmsub213pdEvex512 seg dest src2 mask src3 s
  | .vfnmsub231pdEvex512 seg dest src2 mask src3 => Sys2Proof.Machine.execVfnmsub231pdEvex512 seg dest src2 mask src3 s

end Sys2Proof.Machine
end

