-- ==== Sys2Proof/Machine/Fetch.lean ====
section
/-! DEFINITION. Fetching an instruction from the program text (10_state.md R29, R30, R35; 70_reset_and_hazards.md
R195), what follows a completed instruction, and placing an instruction for the next step. -/

namespace Sys2Proof.Machine

open Sys2Proof

/-- `pc` as a number: RIP, or EIP outside `Long64` (10_state.md R29). -/
def State.pcNat (s : State) : Nat := s.pc.toNat % addressSpace s.params.mode

/-- The bytes of the program text from `pc` on; a refusal where `pc` is outside it, which at the address just past it
is the normal end of the run (R195; 90_conflicts.md C10). A program text that would run past the top of the address
space is none: nothing is fetched from it (10_state.md R30; log entry 21). DESIGN CHOICE (unsafe, log entry 35): a text at a
non-canonical address is fetched like any other. -/
def State.fetchBytes (s : State) : Host.Outcome (List Byte) Fault Refusal :=
  if addressSpace s.params.mode < s.text.base.toNat + s.text.bytes.length then .refused .outsideText
  else if s.text.base.toNat ≤ s.pcNat ∧ s.pcNat < s.text.base.toNat + s.text.bytes.length then
    .next (s.text.bytes.drop (s.pcNat - s.text.base.toNat))
  else if s.pcNat = (s.text.base.toNat + s.text.bytes.length) % addressSpace s.params.mode then .refused .endOfText
  else .refused .outsideText

/-- What decoded bytes are to the machine: an instruction, #UD (30_encoding.md R81), or a refusal (R82, R83;
10_state.md R30). -/
def fetched : Decoded → Host.Outcome Instr Fault Refusal
  | .instr i => .next i
  | .illegal _ => raise .ud
  | .outOfScope why => .refused (.outOfScope why)
  | .truncated => .refused .truncated

/-- The instruction at `pc`. -/
def State.fetchInstr (s : State) : Host.Outcome Instr Fault Refusal :=
  andThen s.fetchBytes fun bs => fetched (decode s.params.mode bs)

/-- After an instruction of `s` has completed with `t`: with single-stepping or a breakpoint active a debug exception
would follow (60_exceptions.md R175), which is out of scope (00_scope.md R6), so the step is refused (log entry 17). -/
def State.retire (s t : State) : Host.Outcome State Fault Refusal :=
  if s.enabled.nodebug then .next t else .refused .debugFacility

/-- `s` with the program text `bs` at `pc`, booted first if it stands in a mode in which no VEX or EVEX byte is
recognised (70_reset_and_hazards.md R190, R191, R192; log entry 1). -/
def State.placeText (s : State) (bs : List Byte) : State :=
  let l := if s.params.mode = .long64 ∨ s.params.mode = .prot32 then s else s.boot
  { l with text := { base := BitVec.ofNat 64 l.pcNat, bytes := bs } }

end Sys2Proof.Machine
end

