-- ==== Sys2Proof/Machine/Step.lean ====
section
/-! DEFINITION. One step of the machine: fetch, decode, execute (60_exceptions.md R176; 70_reset_and_hazards.md R193,
R195). -/

namespace Sys2Proof.Machine

open Sys2Proof

/-- One instruction of the program text. -/
def step (s : State) : Host.Outcome State Fault Refusal :=
  andThen s.fetchInstr fun i => andThen (exec i s) s.retire

/-- `s` with the instruction of the word `w` as the program text at `pc`, so that the next step runs it. It stands for
the launch of 70_reset_and_hazards.md R191 (log entry 1). -/
def State.withFetchWord (s : State) (nbits w : Nat) : State := s.placeText (wordBytes nbits w)

end Sys2Proof.Machine
end

