-- ==== Sys2Proof/Machine/Instantiation.lean ====
section
/-! DEFINITION. The machine under any instantiation of its configuration fields (00_scope.md R7; 40_fnmsub_lane.md R116):
`exec` and `step` are `execWith` and `stepWith` at `defaultConfiguration`. -/

namespace Sys2Proof.Machine

open Sys2Proof

/-- What an instruction does in a state, in the instantiation `c`. -/
def execWith (c : Configuration) (i : Instr) (s : State) : Host.Outcome State Fault Refusal :=
  match i with
  | .vfnmsub132pdVex128 seg dest src2 src3 => execVfnmsub132pdVex128With c seg dest src2 src3 s
  | .vfnmsub213pdVex128 seg dest src2 src3 => execVfnmsub213pdVex128With c seg dest src2 src3 s
  | .vfnmsub231pdVex128 seg dest src2 src3 => execVfnmsub231pdVex128With c seg dest src2 src3 s
  | .vfnmsub132pdVex256 seg dest src2 src3 => execVfnmsub132pdVex256With c seg dest src2 src3 s
  | .vfnmsub213pdVex256 seg dest src2 src3 => execVfnmsub213pdVex256With c seg dest src2 src3 s
  | .vfnmsub231pdVex256 seg dest src2 src3 => execVfnmsub231pdVex256With c seg dest src2 src3 s
  | .vfnmsub132pdEvex128 seg dest src2 mask src3 => execVfnmsub132pdEvex128With c seg dest src2 mask src3 s
  | .vfnmsub213pdEvex128 seg dest src2 mask src3 => execVfnmsub213pdEvex128With c seg dest src2 mask src3 s
  | .vfnmsub231pdEvex128 seg dest src2 mask src3 => execVfnmsub231pdEvex128With c seg dest src2 mask src3 s
  | .vfnmsub132pdEvex256 seg dest src2 mask src3 => execVfnmsub132pdEvex256With c seg dest src2 mask src3 s
  | .vfnmsub213pdEvex256 seg dest src2 mask src3 => execVfnmsub213pdEvex256With c seg dest src2 mask src3 s
  | .vfnmsub231pdEvex256 seg dest src2 mask src3 => execVfnmsub231pdEvex256With c seg dest src2 mask src3 s
  | .vfnmsub132pdEvex512 seg dest src2 mask src3 => execVfnmsub132pdEvex512With c seg dest src2 mask src3 s
  | .vfnmsub213pdEvex512 seg dest src2 mask src3 => execVfnmsub213pdEvex512With c seg dest src2 mask src3 s
  | .vfnmsub231pdEvex512 seg dest src2 mask src3 => execVfnmsub231pdEvex512With c seg dest src2 mask src3 s

/-- One instruction of the program text, in the instantiation `c`. -/
def stepWith (c : Configuration) (s : State) : Host.Outcome State Fault Refusal :=
  andThen s.fetchInstr fun i => andThen (execWith c i s) s.retire

end Sys2Proof.Machine
end

