-- ==== Sys2Proof/Safety.lean ====
section
/-! DEFINITION. The terms that statements use: the invariant of the machine, the usual premises of a claim (60_exceptions.md
R166; 70_reset_and_hazards.md R191), and runs. -/

namespace Sys2Proof.Machine

open Sys2Proof

/-- MXCSR bits 31:16 are 0 (10_state.md R27, R36). -/
abbrev State.MxcsrReservedZero (s : State) : Prop := s.mxcsr.extractLsb' 16 16 = 0

/-- `MAX_VL` and the size of the register file (10_state.md R20, R21): without AVX512F nothing is stored above bit 255
or in registers 16 to 31. -/
abbrev State.WithinMaxVl (s : State) : Prop :=
  s.params.hasAvx512f = true ∨
    ∀ r : Fin 32, s.v[r].extractLsb' 256 256 = 0 ∧ (16 ≤ r.val → s.v[r] = 0)

/-- `pc` is a linear address of the mode (10_state.md R29; 20_memory.md R48). -/
abbrev State.PcInRange (s : State) : Prop := s.pc.toNat < addressSpace s.params.mode

/-- AVX512VL implies AVX512F, which the model requires (92_eei_decisions.md D4; 00_scope.md R7). -/
abbrev State.FlagsConsistent (s : State) : Prop := s.params.hasAvx512vl = true → s.params.hasAvx512f = true

/-- The invariant that every launch state has and every step keeps. -/
abbrev State.Inv (s : State) : Prop :=
  s.FlagsConsistent ∧ s.MxcsrReservedZero ∧ s.WithinMaxVl ∧ s.PcInRange ∧ Memory.wf s.mem = true

/-- The usual premise of a claim about a VEX form (R166): FMA present, enabled, and CR0.TS clear. -/
abbrev State.VexReady (s : State) : Prop :=
  s.params.hasFma = true ∧ s.enabled.avx = true ∧ s.enabled.ts = false

/-- The usual premise of a claim about an EVEX form of `n` elements (00_scope.md R2; R166). -/
abbrev State.EvexReady (s : State) (n : Nat) : Prop :=
  s.params.hasAvx512f = true ∧ (n < 8 → s.params.hasAvx512vl = true) ∧ s.enabled.avx512 = true ∧ s.enabled.ts = false

/-- All six floating-point exceptions are masked (MXCSR[12:7] = 111111b). -/
abbrev State.AllMasked (s : State) : Prop := mxcsrMasks s.mxcsr = BitVec.allOnes 6

/-- A full-width operand of `n` elements at `ea` is read, `act` saying which elements are computed: the computed elements
are readable, the others readable or their faults suppressed (20_memory.md R47, R55), and no alignment check is active
or the address is a multiple of the size (R44). -/
abbrev State.FullReadable (s : State) (ea : Word64) (n : Nat) (act : Nat → Bool) : Prop :=
  (∀ j < n, act j = true → s.elemReadable (ea.toNat + 8 * j) = true) ∧
    (s.params.faultSuppression = true ∨ ∀ j < n, s.elemReadable (ea.toNat + 8 * j) = true) ∧
    (s.acCheck = false ∨ ea.toNat % (8 * n) = 0)

/-- A broadcast operand at `ea` is read: its eight bytes are readable if an element is computed, and otherwise readable
or suppressed (R47), and no alignment check is active or the address is a multiple of 8 (R44). -/
abbrev State.BroadcastReadable (s : State) (ea : Word64) (n : Nat) (act : Nat → Bool) : Prop :=
  ((∃ j < n, act j = true) → s.elemReadable ea.toNat = true) ∧
    (s.params.faultSuppression = true ∨ s.elemReadable ea.toNat = true) ∧
    (s.acCheck = false ∨ ea.toNat % 8 = 0)

/-- Operand 3 of a VEX form of `n` elements can be read: a register, or readable memory. -/
def State.VexOperandReady (s : State) (seg : Option Seg) (n len : Nat) (src3 : VexOperand)
    (c : Configuration := defaultConfiguration) : Prop :=
  match src3 with
  | .reg _ => True
  | .mem a => s.FullReadable (c.ea s seg a len 1) n fun _ => true

/-- Operand 3 of an EVEX form of `n` elements can be read: a register, or readable memory. -/
def State.EvexOperandReady (s : State) (seg : Option Seg) (n len : Nat) (k : WriteMask) (src3 : EvexOperandEr)
    (c : Configuration := defaultConfiguration) : Prop :=
  match src3 with
  | .reg _ => True
  | .regEr _ _ => True
  | .mem a => s.FullReadable (c.ea s seg a len (8 * n)) n (s.laneActive k)
  | .bcst a => s.BroadcastReadable (c.ea s seg a len 8) n (s.laneActive k)

/-- Element `j` of operand 3 of a VEX form: of the register, or eight bytes of memory (20_memory.md R42). -/
def State.vexElem3 (s : State) (seg : Option Seg) (len j : Nat) (src3 : VexOperand)
    (c : Configuration := defaultConfiguration) : Elem :=
  match src3 with
  | .reg r => lane (s.readV (vexReg r)) j
  | .mem a => s.readElem ((c.ea s seg a len 1).toNat + 8 * j)

/-- Element `j` of operand 3 of an EVEX form of `n` elements: of the register, of full-width memory, or the one
broadcast datum (42_vfnmsub_evex.md R153). -/
def State.evexElem3 (s : State) (seg : Option Seg) (n len j : Nat) (src3 : EvexOperandEr)
    (c : Configuration := defaultConfiguration) : Elem :=
  match src3 with
  | .reg r => lane (s.readV r) j
  | .regEr _ r => lane (s.readV r) j
  | .mem a => s.readElem ((c.ea s seg a len (8 * n)).toNat + 8 * j)
  | .bcst a => s.readElem (c.ea s seg a len 8).toNat

/-- The register that an instruction writes, operand 1 (30_encoding.md R68, R69). -/
def destOf : Instr → BitVec 5
  | .vfnmsub132pdVex128 _ d _ _ => vexReg d
  | .vfnmsub213pdVex128 _ d _ _ => vexReg d
  | .vfnmsub231pdVex128 _ d _ _ => vexReg d
  | .vfnmsub132pdVex256 _ d _ _ => vexReg d
  | .vfnmsub213pdVex256 _ d _ _ => vexReg d
  | .vfnmsub231pdVex256 _ d _ _ => vexReg d
  | .vfnmsub132pdEvex128 _ d _ _ _ => d
  | .vfnmsub213pdEvex128 _ d _ _ _ => d
  | .vfnmsub231pdEvex128 _ d _ _ _ => d
  | .vfnmsub132pdEvex256 _ d _ _ _ => d
  | .vfnmsub213pdEvex256 _ d _ _ _ => d
  | .vfnmsub231pdEvex256 _ d _ _ _ => d
  | .vfnmsub132pdEvex512 _ d _ _ _ => d
  | .vfnmsub213pdEvex512 _ d _ _ _ => d
  | .vfnmsub231pdEvex512 _ d _ _ _ => d

/-- The vector length of an instruction in bits (00_scope.md R2). -/
def vectorLength : Instr → Nat
  | .vfnmsub132pdVex128 _ _ _ _ => 128
  | .vfnmsub213pdVex128 _ _ _ _ => 128
  | .vfnmsub231pdVex128 _ _ _ _ => 128
  | .vfnmsub132pdVex256 _ _ _ _ => 256
  | .vfnmsub213pdVex256 _ _ _ _ => 256
  | .vfnmsub231pdVex256 _ _ _ _ => 256
  | .vfnmsub132pdEvex128 _ _ _ _ _ => 128
  | .vfnmsub213pdEvex128 _ _ _ _ _ => 128
  | .vfnmsub231pdEvex128 _ _ _ _ _ => 128
  | .vfnmsub132pdEvex256 _ _ _ _ _ => 256
  | .vfnmsub213pdEvex256 _ _ _ _ _ => 256
  | .vfnmsub231pdEvex256 _ _ _ _ _ => 256
  | .vfnmsub132pdEvex512 _ _ _ _ _ => 512
  | .vfnmsub213pdEvex512 _ _ _ _ _ => 512
  | .vfnmsub231pdEvex512 _ _ _ _ _ => 512

/-- The prefix of an instruction is EVEX (30_encoding.md R60). -/
def usesEvex : Instr → Bool
  | .vfnmsub132pdVex128 _ _ _ _ => false
  | .vfnmsub213pdVex128 _ _ _ _ => false
  | .vfnmsub231pdVex128 _ _ _ _ => false
  | .vfnmsub132pdVex256 _ _ _ _ => false
  | .vfnmsub213pdVex256 _ _ _ _ => false
  | .vfnmsub231pdVex256 _ _ _ _ => false
  | .vfnmsub132pdEvex128 _ _ _ _ _ => true
  | .vfnmsub213pdEvex128 _ _ _ _ _ => true
  | .vfnmsub231pdEvex128 _ _ _ _ _ => true
  | .vfnmsub132pdEvex256 _ _ _ _ _ => true
  | .vfnmsub213pdEvex256 _ _ _ _ _ => true
  | .vfnmsub231pdEvex256 _ _ _ _ _ => true
  | .vfnmsub132pdEvex512 _ _ _ _ _ => true
  | .vfnmsub213pdEvex512 _ _ _ _ _ => true
  | .vfnmsub231pdEvex512 _ _ _ _ _ => true

/-- Which of the three mnemonics an instruction has. -/
def orderOfInstr : Instr → FmaOrder
  | .vfnmsub132pdVex128 _ _ _ _ => .o132
  | .vfnmsub213pdVex128 _ _ _ _ => .o213
  | .vfnmsub231pdVex128 _ _ _ _ => .o231
  | .vfnmsub132pdVex256 _ _ _ _ => .o132
  | .vfnmsub213pdVex256 _ _ _ _ => .o213
  | .vfnmsub231pdVex256 _ _ _ _ => .o231
  | .vfnmsub132pdEvex128 _ _ _ _ _ => .o132
  | .vfnmsub213pdEvex128 _ _ _ _ _ => .o213
  | .vfnmsub231pdEvex128 _ _ _ _ _ => .o231
  | .vfnmsub132pdEvex256 _ _ _ _ _ => .o132
  | .vfnmsub213pdEvex256 _ _ _ _ _ => .o213
  | .vfnmsub231pdEvex256 _ _ _ _ _ => .o231
  | .vfnmsub132pdEvex512 _ _ _ _ _ => .o132
  | .vfnmsub213pdEvex512 _ _ _ _ _ => .o213
  | .vfnmsub231pdEvex512 _ _ _ _ _ => .o231

/-- A memory operand 3: its address form, the factor of a disp8 (30_encoding.md R78), how many elements the form has,
whether one datum is broadcast to them, and the write mask (no mask under VEX). -/
structure MemOperand where
  seg : Option Seg
  addr : Addr
  scale : Nat
  lanes : Nat
  bcst : Bool
  mask : WriteMask

def vexMemOperand (n : Nat) (seg : Option Seg) : VexOperand → Option MemOperand
  | .reg _ => none
  | .mem a => some ⟨seg, a, 1, n, false, ⟨0, false⟩⟩

def evexMemOperand (n : Nat) (seg : Option Seg) (k : WriteMask) : EvexOperandEr → Option MemOperand
  | .reg _ => none
  | .regEr _ _ => none
  | .mem a => some ⟨seg, a, 8 * n, n, false, k⟩
  | .bcst a => some ⟨seg, a, 8, n, true, k⟩

/-- The memory operand of an instruction, if it has one. -/
def memOperand : Instr → Option MemOperand
  | .vfnmsub132pdVex128 seg _ _ s3 => vexMemOperand 2 seg s3
  | .vfnmsub213pdVex128 seg _ _ s3 => vexMemOperand 2 seg s3
  | .vfnmsub231pdVex128 seg _ _ s3 => vexMemOperand 2 seg s3
  | .vfnmsub132pdVex256 seg _ _ s3 => vexMemOperand 4 seg s3
  | .vfnmsub213pdVex256 seg _ _ s3 => vexMemOperand 4 seg s3
  | .vfnmsub231pdVex256 seg _ _ s3 => vexMemOperand 4 seg s3
  | .vfnmsub132pdEvex128 seg _ _ k s3 => evexMemOperand 2 seg k (evexOperandEr s3)
  | .vfnmsub213pdEvex128 seg _ _ k s3 => evexMemOperand 2 seg k (evexOperandEr s3)
  | .vfnmsub231pdEvex128 seg _ _ k s3 => evexMemOperand 2 seg k (evexOperandEr s3)
  | .vfnmsub132pdEvex256 seg _ _ k s3 => evexMemOperand 4 seg k (evexOperandEr s3)
  | .vfnmsub213pdEvex256 seg _ _ k s3 => evexMemOperand 4 seg k (evexOperandEr s3)
  | .vfnmsub231pdEvex256 seg _ _ k s3 => evexMemOperand 4 seg k (evexOperandEr s3)
  | .vfnmsub132pdEvex512 seg _ _ k s3 => evexMemOperand 8 seg k s3
  | .vfnmsub213pdEvex512 seg _ _ k s3 => evexMemOperand 8 seg k s3
  | .vfnmsub231pdEvex512 seg _ _ k s3 => evexMemOperand 8 seg k s3

/-- The first byte of the datum that element `j` uses, in an instruction of `len` bytes (20_memory.md R42, R43). -/
def MemOperand.elemAt (o : MemOperand) (s : State) (len j : Nat) : Nat :=
  (s.effectiveAddress o.seg o.addr len o.scale).toNat + if o.bcst then 0 else 8 * j

/-- Element `j` has a byte that cannot be read (20_memory.md R55). -/
def MemOperand.Unreadable (o : MemOperand) (s : State) (len j : Nat) : Prop :=
  ∃ b < 8, s.readByte (o.elemAt s len j + b) = none

/-- Element `j` is computed (42_vfnmsub_evex.md R141). -/
def MemOperand.Computed (o : MemOperand) (s : State) (j : Nat) : Prop :=
  o.mask.aaa = 0 ∨ (s.readK o.mask.aaa).getLsbD j = true

/-- No check that reads no data stops an instruction (41_vfnmsub_vex.md R130 and 42_vfnmsub_evex.md R140, step 1). -/
def State.Ready (s : State) : Instr → Prop
  | .vfnmsub132pdVex128 _ _ _ _ => s.VexReady
  | .vfnmsub213pdVex128 _ _ _ _ => s.VexReady
  | .vfnmsub231pdVex128 _ _ _ _ => s.VexReady
  | .vfnmsub132pdVex256 _ _ _ _ => s.VexReady
  | .vfnmsub213pdVex256 _ _ _ _ => s.VexReady
  | .vfnmsub231pdVex256 _ _ _ _ => s.VexReady
  | .vfnmsub132pdEvex128 _ _ _ k _ => s.EvexReady 2 ∧ k.wf = true
  | .vfnmsub213pdEvex128 _ _ _ k _ => s.EvexReady 2 ∧ k.wf = true
  | .vfnmsub231pdEvex128 _ _ _ k _ => s.EvexReady 2 ∧ k.wf = true
  | .vfnmsub132pdEvex256 _ _ _ k _ => s.EvexReady 4 ∧ k.wf = true
  | .vfnmsub213pdEvex256 _ _ _ k _ => s.EvexReady 4 ∧ k.wf = true
  | .vfnmsub231pdEvex256 _ _ _ k _ => s.EvexReady 4 ∧ k.wf = true
  | .vfnmsub132pdEvex512 _ _ _ k _ => s.EvexReady 8 ∧ k.wf = true
  | .vfnmsub213pdEvex512 _ _ _ k _ => s.EvexReady 8 ∧ k.wf = true
  | .vfnmsub231pdEvex512 _ _ _ k _ => s.EvexReady 8 ∧ k.wf = true

/-- The element operation as element `j` of an instruction that starts in `s` performs it (R130 and R140, step 3):
DAZ and FTZ are MXCSR's, the bits of a NaN result are the draw of `s`. -/
def State.fnmsub (s : State) (rm : Rounding) (masks : BitVec 6) (j : Nat) (x y z : Elem)
    (c : Configuration := defaultConfiguration) : LaneResult :=
  c.fnmsub64 (Config.nanBits s.draws j) rm (mxcsrDaz s.mxcsr) (mxcsrFtz s.mxcsr) masks x y z

/-- Nothing but `V[dest]`, MXCSR, `pc` and the draw counter differs. -/
def State.SameElsewhere (s t : State) (dest : BitVec 5) : Prop :=
  (∀ q, q ≠ dest → t.readV q = s.readV q) ∧ t.k = s.k ∧ t.x = s.x ∧ t.sys = s.sys ∧ t.params = s.params ∧
    t.mem = s.mem ∧ t.text = s.text

/-- `t` is `s` after an instruction of `len` bytes that wrote `V[dest]` with the `n` elements `r` and zeros above them
(41_vfnmsub_vex.md R138, 42_vfnmsub_evex.md R155), `pc` being past the instruction (10_state.md R29). -/
def State.CompletedTo (s t : State) (dest : BitVec 5) (n len : Nat) (r : Nat → Elem) : Prop :=
  (∀ j < n, lane (t.readV dest) j = r j) ∧ (∀ b, 64 * n ≤ b → (t.readV dest).getLsbD b = false) ∧
    t.pc.toNat = (s.pc.toNat + len) % addressSpace s.params.mode ∧ s.SameElsewhere t dest

/-- MXCSR goes from `m` to `m'` by the sticky flags of `n` elements (60_exceptions.md R164). -/
def FlagsAdded (m m' : BitVec 32) (n : Nat) (f : Nat → BitVec 6) : Prop :=
  m'.extractLsb' 6 26 = m.extractLsb' 6 26 ∧
    ∀ b < 6, m'.getLsbD b = (m.getLsbD b || (List.range n).any fun j => (f j).getLsbD b)

/-- `m'` is what an unmasked floating-point exception may leave of MXCSR = `m`, where `d` are the flags detected in all
computed elements and `masks` the masks (60_exceptions.md R162). -/
def FaultFlagsAdded (m m' : BitVec 32) (masks d : BitVec 6) : Prop :=
  m'.extractLsb' 6 26 = m.extractLsb' 6 26 ∧
    mxcsrFlags m &&& ~~~mxcsrFlags m' = 0 ∧ mxcsrFlags m' &&& ~~~(mxcsrFlags m ||| d) = 0 ∧
    mxcsrFlags m' &&& (d &&& ~~~masks) ≠ 0

/-- The displacement of an address as an integer, disp8 scaled by `n` (30_encoding.md R76, R78). -/
def dispInt (n : Nat) : Disp → ℤ
  | .none => 0
  | .d8 b => b.toInt * n
  | .d32 w => w.toInt

/-- The index term of an address as an integer: absent for index number 4 (R76). -/
def State.indexInt (s : State) (scale : BitVec 2) (index : BitVec 4) : ℤ :=
  if index = 4 then 0 else ((s.readX index).toNat : ℤ) * 2 ^ scale.toNat

/-- The address expression of R76 as an integer, before any wrapping. -/
def State.addressInt (s : State) (len n : Nat) : Addr → ℤ
  | .based base d => (s.readX base).toNat + dispInt n d
  | .relative d => (if s.params.mode = .long64 then (s.pc.toNat : ℤ) + len else 0) + d.toInt
  | .sib scale index base d => (s.readX base).toNat + s.indexInt scale index + dispInt n d
  | .sibNoBase scale index d => s.indexInt scale index + d.toInt

/-- A finite double as a rational number (40_fnmsub_lane.md R103). -/
def valueQ (v : Elem) : ℚ := (if signBit v then -1 else 1) * significand v * (2 : ℚ) ^ ((scaleField v : ℤ) - 1075)

/-- `t = -(X*Y) - Z`, exact (40_fnmsub_lane.md R100, R105). -/
def exactQ (x y z : Elem) : ℚ := -(valueQ x * valueQ y) - valueQ z

/-- The numbers with at most 53 significant bits, the exponent unbounded (40_fnmsub_lane.md R104). -/
def Representable (w : ℚ) : Prop := ∃ (n : ℤ) (q : ℤ), n.natAbs < 2 ^ 53 ∧ w = n * (2 : ℚ) ^ q

/-- Those of them whose last fraction bit is 0. -/
def RepresentableEven (w : ℚ) : Prop := ∃ (n : ℤ) (q : ℤ), n.natAbs < 2 ^ 53 ∧ 2 ∣ n ∧ w = n * (2 : ℚ) ^ q

/-- The integer multiples of 2^-1074 (R112). -/
def MultipleOfLeast (w : ℚ) : Prop := ∃ n : ℤ, w = n * (2 : ℚ) ^ (-1074 : ℤ)

/-- The even multiples of 2^-1074. -/
def MultipleOfLeastEven (w : ℚ) : Prop := ∃ n : ℤ, 2 ∣ n ∧ w = n * (2 : ℚ) ^ (-1074 : ℤ)

/-- `w` is `t` rounded in mode `rm` to the numbers of `P` (R104); on a tie in round-to-nearest it is one of `E`. -/
def RoundedTo (P E : ℚ → Prop) (rm : Rounding) (t w : ℚ) : Prop :=
  P w ∧
    match rm with
    | .nearestEven => ∀ u, P u → |w - t| ≤ |u - t| ∧ (|w - t| = |u - t| → u = w ∨ E w)
    | .down => w ≤ t ∧ ∀ u, P u → u ≤ t → u ≤ w
    | .up => t ≤ w ∧ ∀ u, P u → t ≤ u → w ≤ u
    | .towardZero => |w| ≤ |t| ∧ 0 ≤ w * t ∧ ∀ u, P u → |u| ≤ |t| → |u| ≤ |w|

/-- `t` is reached from `s` by steps that complete. -/
inductive Reaches : State → State → Prop where
  | refl (s : State) : Reaches s s
  | step {s t u : State} (first : step s = .next t) (rest : Reaches t u) : Reaches s u

/-- No step of a run from `s` ends in a fault (60_exceptions.md R176). -/
def State.NeverFaults (s : State) : Prop := ∀ t f, Reaches s t → step t ≠ .fault f

end Sys2Proof.Machine
end

