-- ==== Sys2Proof/Certificates/Slice0/Obligations.lean ====
section
/-! DEFINITION. The statements for the provers. Each docstring names the rule that a statement formalises. -/

open Sys2Proof Sys2Proof.Machine

/-- Reset leaves what 10_state.md R36 and 70_reset_and_hazards.md R190 say. Where PE and IF stand is PRESUMED (log entry 2). -/
def Obligations.ResetValues : Prop :=
  (∀ r, State.reset.readV r = 0) ∧ (∀ a, State.reset.readK a = 0) ∧ (∀ g, g ≠ 2 → State.reset.readX g = 0) ∧
    State.reset.mxcsr = 0x1F80 ∧ State.reset.pc = 0xFFFFFFF0 ∧ State.reset.params.mode = .realAddress ∧
    State.reset.sys.cr0.getLsbD 0 = false ∧ State.reset.sys.cr4.getLsbD 18 = false ∧ State.reset.sys.xcr0 = 1 ∧
    State.reset.sys.rflags.getLsbD 9 = false

/-- 70_reset_and_hazards.md R190: in the state after reset no form can execute. -/
def Obligations.ResetExecutesNothing : Prop :=
  ∀ i, exec i State.reset = .fault .ud

/-- The machine starts within its invariant (00_scope.md R7; 10_state.md R27, R36). Which processor the reset state is of is the
model's choice (log entry 23). -/
def Obligations.ResetInv : Prop :=
  State.reset.Inv

/-- The model's choice (log entry 1): `withFetchWord` stands for the launch of 70_reset_and_hazards.md R191 and R192, after
which the placed instruction is the next to run. -/
def Obligations.PlacedWordRunsAfterReset : Prop :=
  ∀ nbits w i, decodeTableWord nbits w = some i →
    step (State.reset.withFetchWord nbits w) = exec i (State.reset.withFetchWord nbits w)

/-- Words written out in the spec (41_vfnmsub_vex.md R131, R133, R136; 42_vfnmsub_evex.md R144, R149, R151). -/
def Obligations.DecodeExamples : Prop :=
  decode .long64 [0xC4, 0xE2, 0xF1, 0x9E, 0xC2] = .instr (.vfnmsub132pdVex128 none 0 1 (.reg 2)) ∧
    decode .long64 [0xC4, 0x42, 0x81, 0xBE, 0xC1] = .instr (.vfnmsub231pdVex128 none 8 15 (.reg 9)) ∧
    decode .long64 [0xC4, 0xE2, 0xED, 0xBE, 0x4C, 0xCB, 0x10] =
      .instr (.vfnmsub231pdVex256 none 1 2 (.mem (.sib 3 1 3 (.d8 0x10)))) ∧
    decode .long64 [0x62, 0xF2, 0xDD, 0x9A, 0xAE, 0x1A] =
      .instr (.vfnmsub213pdEvex128 none 3 4 ⟨2, true⟩ (.bcst (.based 2 .none))) ∧
    decode .long64 [0x62, 0xF2, 0xCD, 0xBD, 0x9E, 0xEF] =
      .instr (.vfnmsub132pdEvex512 none 5 6 ⟨5, true⟩ (.regEr 1 7)) ∧
    decode .long64 [0x62, 0x02, 0x8D, 0x40, 0xBE, 0xFD] =
      .instr (.vfnmsub231pdEvex512 none 31 30 ⟨0, false⟩ (.reg 29))

/-- Decode and encode agree (30_encoding.md R61 to R76), whatever bytes follow. -/
def Obligations.DecodeEncode : Prop :=
  ∀ (m : CpuMode) (i : Instr) (rest : List Byte), i.wf m = true → decode m (encode i ++ rest) = .instr i

/-- The decoder refuses or rejects what is not well formed (30_encoding.md R76, R81, R83). -/
def Obligations.DecodeWellFormed : Prop :=
  ∀ (m : CpuMode) (bs : List Byte) (i : Instr), decode m bs = .instr i → i.wf m = true

/-- 30_encoding.md R79: the length, found only by decoding. -/
def Obligations.DecodeLength : Prop :=
  ∀ (m : CpuMode) (bs : List Byte) (i : Instr), decode m bs = .instr i →
    i.length ≤ bs.length ∧ (∀ rest, decode m (bs.take i.length ++ rest) = .instr i) ∧
      (if usesEvex i then 6 else 5) + (splitLead m bs).1.length ≤ i.length ∧
      i.length ≤ (if usesEvex i then 11 else 10) + (splitLead m bs).1.length

/-- 30_encoding.md R81, line 1, and R84. (A second legacy byte is out of scope by R83.) That a REX byte which stands before a
segment override makes the encoding illegal too is the model's reading of R81 (DEDUCED, log entry 12). -/
def Obligations.LeadByteIllegal : Prop :=
  ∀ (m : CpuMode) (i : Instr) (rest : List Byte) (b : Byte), i.wf m = true →
    ((b = 0xF0 ∨ b = 0x66 ∨ b = 0xF2 ∨ b = 0xF3) → ((encode i).head? = some 0xC4 ∨ (encode i).head? = some 0x62) →
      decode m (b :: encode i ++ rest) = .illegal .leadByte) ∧
    (m = .long64 → b.extractLsb' 4 4 = 4 → decode m (b :: encode i ++ rest) = .illegal .leadByte)

/-- 30_encoding.md R81, lines 4 to 7. -/
def Obligations.EvexIllegalExactly : Prop :=
  ∀ (p0 p1 p2 op modrm : Byte) (rest : List Byte),
    p0.extractLsb' 0 2 = 0b10#2 → p1.getLsbD 7 = true → p1.extractLsb' 0 2 = 0b01#2 →
    (op = 0x9E ∨ op = 0xAE ∨ op = 0xBE) → decode .long64 (0x62 :: p0 :: p1 :: p2 :: op :: modrm :: rest) ≠ .truncated →
    if p0.extractLsb' 2 2 ≠ 0b00#2 ∨ p1.getLsbD 2 = false ∨
        (p2.extractLsb' 5 2 = 0b11#2 ∧ ¬(modrm.extractLsb' 6 2 = 0b11#2 ∧ p2.getLsbD 4 = true)) ∨
        (p2.getLsbD 7 = true ∧ p2.extractLsb' 0 3 = 0b000#3) then
      ∃ why, decode .long64 (0x62 :: p0 :: p1 :: p2 :: op :: modrm :: rest) = .illegal why
    else ∃ i, decode .long64 (0x62 :: p0 :: p1 :: p2 :: op :: modrm :: rest) = .instr i

/-- 30_encoding.md R65, R67 and R75. -/
def Obligations.RowSelected : Prop :=
  (∀ (m : CpuMode) (b1 b2 op modrm : Byte) (rest : List Byte) (i : Instr),
    decode m (0xC4 :: b1 :: b2 :: op :: modrm :: rest) = .instr i →
      usesEvex i = false ∧ vectorLength i = (if b2.getLsbD 2 then 256 else 128) ∧
      op = (match orderOfInstr i with | .o132 => 0x9E | .o213 => 0xAE | .o231 => 0xBE)) ∧
  (∀ (m : CpuMode) (p0 p1 p2 op modrm : Byte) (rest : List Byte) (i : Instr),
    decode m (0x62 :: p0 :: p1 :: p2 :: op :: modrm :: rest) = .instr i →
      usesEvex i = true ∧
      vectorLength i = (if modrm.extractLsb' 6 2 = 0b11#2 ∧ p2.getLsbD 4 = true then 512
        else 128 * 2 ^ (p2.extractLsb' 5 2).toNat) ∧
      op = (match orderOfInstr i with | .o132 => 0x9E | .o213 => 0xAE | .o231 => 0xBE))

/-- 30_encoding.md R82 and R83. DEDUCED (log entry 12): a byte 40 to 4F is a REX byte in 64-bit mode only, so that before a row it
is another instruction elsewhere, where R81 line 1 by its letter says #UD; and 67H or a second legacy byte is judged first
whatever else stands before the row. -/
def Obligations.OutOfScopeRefused : Prop :=
  (∀ (m : CpuMode) (b : Byte) (rest : List Byte), leadByte m b = none → b ≠ 0xC4 → b ≠ 0x62 →
      decode m (b :: rest) = .outOfScope .otherInstruction) ∧
    (∀ (b1 b2 op modrm : Byte) (rest : List Byte),
      (b1.extractLsb' 0 5 ≠ 0b00010#5 ∨ b2.getLsbD 7 = false ∨ b2.extractLsb' 0 2 ≠ 0b01#2 ∨
        (op ≠ 0x9E ∧ op ≠ 0xAE ∧ op ≠ 0xBE)) →
      decode .long64 (0xC4 :: b1 :: b2 :: op :: modrm :: rest) = .outOfScope .otherInstruction) ∧
    (∀ (p0 p1 p2 op modrm : Byte) (rest : List Byte),
      (p0.extractLsb' 0 2 ≠ 0b10#2 ∨ p1.getLsbD 7 = false ∨ p1.extractLsb' 0 2 ≠ 0b01#2 ∨
        (op ≠ 0x9E ∧ op ≠ 0xAE ∧ op ≠ 0xBE)) →
      decode .long64 (0x62 :: p0 :: p1 :: p2 :: op :: modrm :: rest) = .outOfScope .otherInstruction) ∧
    (∀ (m : CpuMode) (bs : List Byte), LeadByte.addressSize ∈ (splitLead m bs).1 →
      decode m bs = .outOfScope .addressSize) ∧
    (∀ (m : CpuMode) (bs : List Byte), 2 ≤ (splitLead m bs).1.countP LeadByte.isLegacy →
      ∃ why, decode m bs = .outOfScope why) ∧
    (∀ (b b1 b2 op modrm : Byte) (rest : List Byte), b1.extractLsb' 6 2 ≠ 0b11#2 →
      decode .prot32 (0xC4 :: b1 :: b2 :: op :: modrm :: rest) = .outOfScope .lesOrBound ∧
        decode .prot32 (0x62 :: b1 :: b2 :: b :: op :: modrm :: rest) = .outOfScope .lesOrBound)

/-- One instruction per step, in program order (70_reset_and_hazards.md R193); with the debug facility active the step of
a completed instruction is refused (log entry 17). That a text at a non-canonical address runs too is the model's choice
(log entry 35). -/
def Obligations.StepRunsDecoded : Prop :=
  ∀ (s : State) (i : Instr), s.PcInRange →
    s.text.base.toNat + s.text.bytes.length ≤ addressSpace s.params.mode → s.text.base.toNat ≤ s.pc.toNat →
    decode s.params.mode (s.text.bytes.drop (s.pc.toNat - s.text.base.toNat)) = .instr i →
    i.wf s.params.mode = true ∧
      (∀ f, exec i s = .fault f → step s = .fault f) ∧ (∀ r, exec i s = .refused r → step s = .refused r) ∧
      (∀ t, exec i s = .next t →
        if s.sys.rflags.getLsbD 8 = false ∧ s.sys.breakpoints = false then step s = .next t
        else step s = .refused .debugFacility)

/-- #UD and refusals (30_encoding.md R81 to R83; 10_state.md R30) and what stands past the text (70_reset_and_hazards.md R195).
The refusal `endOfText` for the normal end of a run is the model's choice (log entry 22), as an outcome is needed there. So is that a text
at a non-canonical address is fetched (log entry 35). -/
def Obligations.StepWithoutInstruction : Prop :=
  ∀ s : State, s.PcInRange → s.text.base.toNat + s.text.bytes.length ≤ addressSpace s.params.mode →
    (s.text.base.toNat ≤ s.pc.toNat → s.pc.toNat < s.text.base.toNat + s.text.bytes.length →
      (∀ why, decode s.params.mode (s.text.bytes.drop (s.pc.toNat - s.text.base.toNat)) = .illegal why →
        step s = .fault .ud) ∧
      (∀ why, decode s.params.mode (s.text.bytes.drop (s.pc.toNat - s.text.base.toNat)) = .outOfScope why →
        step s = .refused (.outOfScope why)) ∧
      (decode s.params.mode (s.text.bytes.drop (s.pc.toNat - s.text.base.toNat)) = .truncated →
        step s = .refused .truncated)) ∧
    (¬(s.text.base.toNat ≤ s.pc.toNat ∧ s.pc.toNat < s.text.base.toNat + s.text.bytes.length) →
      step s = .refused (if s.pc.toNat = (s.text.base.toNat + s.text.bytes.length) % addressSpace s.params.mode
        then .endOfText else .outsideText))

/-- Every step keeps what every launch state has (00_scope.md R7; 10_state.md R21, R27, R29). -/
def Obligations.StepKeepsInv : Prop :=
  ∀ s t : State, s.Inv → step s = .next t → t.Inv

/-- What no form writes (20_memory.md R40, R50; 10_state.md R24, R27, R28, R31, R32). -/
def Obligations.StepKeepsLaunchState : Prop :=
  ∀ s t : State, step s = .next t →
    t.k = s.k ∧ t.x = s.x ∧ t.sys = s.sys ∧ t.params = s.params ∧ (∀ a, t.readByte a = s.readByte a) ∧
      t.text = s.text ∧ t.mxcsr.extractLsb' 6 26 = s.mxcsr.extractLsb' 6 26 ∧
      (∀ b < 6, s.mxcsr.getLsbD b = true → t.mxcsr.getLsbD b = true) ∧ t.mxcsr.getLsbD 2 = s.mxcsr.getLsbD 2

/-- 20_memory.md R50: memory is constant during a run; 10_state.md R27: flags are sticky and ZE is never set. -/
def Obligations.RunKeepsLaunchState : Prop :=
  ∀ s t : State, Reaches s t →
    t.k = s.k ∧ t.x = s.x ∧ t.sys = s.sys ∧ t.params = s.params ∧ t.mem = s.mem ∧ t.text = s.text ∧
      t.mxcsr.extractLsb' 6 26 = s.mxcsr.extractLsb' 6 26 ∧ t.mxcsr.getLsbD 2 = s.mxcsr.getLsbD 2 ∧
      (∀ b < 6, s.mxcsr.getLsbD b = true → t.mxcsr.getLsbD b = true)

/-- 60_exceptions.md R162: only a detected exception whose mask bit is 0 raises #XM (or #UD in its place). -/
def Obligations.MaskedRunNeverXm : Prop :=
  (∀ s t : State, s.AllMasked → step s = .next t → t.AllMasked) ∧
    (∀ (s : State) (m : BitVec 32), s.AllMasked → step s ≠ .fault (.xm m) ∧ step s ≠ .fault (.udSimd m)) ∧
    ∀ s t : State, s.AllMasked → Reaches s t → ∀ m, step t ≠ .fault (.xm m) ∧ step t ≠ .fault (.udSimd m)

/-- 10_state.md R29: `pc <- pc + len`; no form is a branch. That a text at a non-canonical address runs too is the model's choice
(log entry 35). -/
def Obligations.PcAdvancesAlongRun : Prop :=
  ∀ s t : State, s.PcInRange → step s = .next t →
    ∃ i, s.text.base.toNat ≤ s.pc.toNat ∧
      decode s.params.mode (s.text.bytes.drop (s.pc.toNat - s.text.base.toNat)) = .instr i ∧
      t.pc.toNat = (s.pc.toNat + i.length) % addressSpace s.params.mode ∧
      ∀ q, q ≠ destOf i → t.readV q = s.readV q

/-- The frame of all fifteen forms (10_state.md R22; 20_memory.md R40). -/
def Obligations.ExecFrame : Prop :=
  ∀ (i : Instr) (s t : State), exec i s = .next t →
    (∀ q, q ≠ destOf i → t.readV q = s.readV q) ∧ (∀ b, vectorLength i ≤ b → (t.readV (destOf i)).getLsbD b = false) ∧
      t.k = s.k ∧ t.x = s.x ∧ t.sys = s.sys ∧ t.params = s.params ∧ t.text = s.text ∧
      (∀ a, t.readByte a = s.readByte a) ∧ t.mxcsr.extractLsb' 6 26 = s.mxcsr.extractLsb' 6 26 ∧
      (∀ b < 6, s.mxcsr.getLsbD b = true → t.mxcsr.getLsbD b = true)

/-- 60_exceptions.md R176: the state equals the state before the step except for MXCSR[5:0] in the case of R162. -/
def Obligations.FaultLeavesState : Prop :=
  ∀ (i : Instr) (s : State) (f : Fault), exec i s = .fault f →
    (s.atFault f).v = s.v ∧ (s.atFault f).k = s.k ∧ (s.atFault f).pc = s.pc ∧ (s.atFault f).x = s.x ∧
      (s.atFault f).mem = s.mem ∧ (s.atFault f).sys = s.sys ∧
      (s.atFault f).mxcsr.extractLsb' 6 26 = s.mxcsr.extractLsb' 6 26 ∧
      (∀ b < 6, s.mxcsr.getLsbD b = true → (s.atFault f).mxcsr.getLsbD b = true) ∧
      ((∀ m, f ≠ .xm m ∧ f ≠ .udSimd m) → s.atFault f = s)

/-- 60_exceptions.md R161 and R163. -/
def Obligations.FaultVectors : Prop :=
  faultVector .ud = 6 ∧ faultVector .nm = 7 ∧ faultVector (.memory .ss) = 12 ∧ faultVector (.memory .gp) = 13 ∧
    faultVector (.memory .pf) = 14 ∧ faultVector (.memory .ac) = 17 ∧ faultVector .ac = 17 ∧
    ∀ m, faultVector (.xm m) = 19 ∧ faultVector (.udSimd m) = 6

/-- 60_exceptions.md R166 for the six VEX forms, with the priority of R170. -/
def Obligations.VexNotEnabled : Prop :=
  ∀ (i : Instr) (s : State), usesEvex i = false →
    if s.params.hasFma = false ∨ (s.params.mode ≠ .prot32 ∧ s.params.mode ≠ .long64) ∨ s.sys.cr4.getLsbD 18 = false ∨
        s.sys.xcr0.getLsbD 1 = false ∨ s.sys.xcr0.getLsbD 2 = false then exec i s = .fault .ud
    else s.sys.cr0.getLsbD 3 = true → exec i s = .fault .nm

/-- 60_exceptions.md R167 for the nine EVEX forms, with the priority of R170. -/
def Obligations.EvexNotEnabled : Prop :=
  ∀ (i : Instr) (s : State), usesEvex i = true → i.wf s.params.mode = true →
    if s.params.hasAvx512f = false ∨ (vectorLength i < 512 ∧ s.params.hasAvx512vl = false) ∨
        (s.params.mode ≠ .prot32 ∧ s.params.mode ≠ .long64) ∨ s.sys.cr4.getLsbD 18 = false ∨
        s.sys.xcr0.getLsbD 1 = false ∨ s.sys.xcr0.getLsbD 2 = false ∨ s.sys.xcr0.getLsbD 5 = false ∨
        s.sys.xcr0.getLsbD 6 = false ∨ s.sys.xcr0.getLsbD 7 = false then exec i s = .fault .ud
    else s.sys.cr0.getLsbD 3 = true → exec i s = .fault .nm

/-- 20_memory.md R55 and R47. -/
def Obligations.MemoryFaultRaised : Prop :=
  ∀ (i : Instr) (s : State) (o : MemOperand), memOperand i = some o → s.Ready i →
    (∃ j < o.lanes, o.Computed s j ∧ o.Unreadable s i.length j) → ∃ c, exec i s = .fault (.memory c)

/-- 20_memory.md R47: fault suppression. DESIGN CHOICE (log entry 34): the refusal goes before the alignment check of R44. -/
def Obligations.MaskedOffBytes : Prop :=
  ∀ (i : Instr) (s : State) (o : MemOperand), memOperand i = some o → s.Ready i →
    (∀ j < o.lanes, o.Computed s j → ¬o.Unreadable s i.length j) → (∃ j < o.lanes, o.Unreadable s i.length j) →
    (s.params.faultSuppression = false → exec i s = .refused .maskedOffFault) ∧
      (s.params.faultSuppression = true → (∀ c, exec i s ≠ .fault (.memory c)) ∧ ∀ r, exec i s ≠ .refused r)

/-- 20_memory.md R44: no alignment is required unless alignment checking is active; then a broadcast operand is checked,
whatever its mask, and a full-width one is a draw. DEDUCED (log entry 32): the check also stands where R47 suppresses the
faults of the operand's unreadable bytes. -/
def Obligations.AlignmentCheck : Prop :=
  (∀ (i : Instr) (s : State), ¬(s.sys.cr0.getLsbD 18 = true ∧ s.sys.rflags.getLsbD 18 = true ∧ s.sys.cpl = 3) →
      exec i s ≠ .fault .ac) ∧
    (∀ (i : Instr) (s : State) (o : MemOperand), memOperand i = some o → o.bcst = true → s.Ready i →
      s.sys.cr0.getLsbD 18 = true → s.sys.rflags.getLsbD 18 = true → s.sys.cpl = 3 →
      o.elemAt s i.length 0 % 8 ≠ 0 →
      (¬o.Unreadable s i.length 0 ∨ (s.params.faultSuppression = true ∧ ∀ j < o.lanes, ¬o.Computed s j)) →
      exec i s = .fault .ac) ∧
    (∀ (i : Instr) (s : State), exec i s = .fault .ac ∨
      exec i s = andThen (exec i { s with sys := { s.sys with rflags := clearBit s.sys.rflags 18 } })
        fun t => .next { t with sys := s.sys })

/-- 41_vfnmsub_vex.md R131 and R134: `-(DEST*SRC3) - SRC2` per element. -/
def Obligations.Vfnmsub132pdVexResult : Prop :=
  ∀ (s : State) (seg : Option Seg) (dest src2 : BitVec 4) (src3 : VexOperand), s.VexReady →
    let len := vexLength seg src3.length
    let e := fun j => s.fnmsub (roundingOf (mxcsrRc s.mxcsr)) (mxcsrMasks s.mxcsr) j
      (lane (s.readV (vexReg dest)) j) (s.vexElem3 seg len j src3) (lane (s.readV (vexReg src2)) j)
    (s.VexOperandReady seg 2 len src3 → (∀ j < 2, (e j).unmasked = false) →
      ∃ t, exec (.vfnmsub132pdVex128 seg dest src2 src3) s = .next t ∧
        s.CompletedTo t (vexReg dest) 2 len (fun j => (e j).value) ∧
        FlagsAdded s.mxcsr t.mxcsr 2 fun j => (e j).flags) ∧
    (s.VexOperandReady seg 4 len src3 → (∀ j < 4, (e j).unmasked = false) →
      ∃ t, exec (.vfnmsub132pdVex256 seg dest src2 src3) s = .next t ∧
        s.CompletedTo t (vexReg dest) 4 len (fun j => (e j).value) ∧
        FlagsAdded s.mxcsr t.mxcsr 4 fun j => (e j).flags)

/-- 41_vfnmsub_vex.md R132 and R135: `-(SRC2*DEST) - SRC3` per element. -/
def Obligations.Vfnmsub213pdVexResult : Prop :=
  ∀ (s : State) (seg : Option Seg) (dest src2 : BitVec 4) (src3 : VexOperand), s.VexReady →
    let len := vexLength seg src3.length
    let e := fun j => s.fnmsub (roundingOf (mxcsrRc s.mxcsr)) (mxcsrMasks s.mxcsr) j
      (lane (s.readV (vexReg src2)) j) (lane (s.readV (vexReg dest)) j) (s.vexElem3 seg len j src3)
    (s.VexOperandReady seg 2 len src3 → (∀ j < 2, (e j).unmasked = false) →
      ∃ t, exec (.vfnmsub213pdVex128 seg dest src2 src3) s = .next t ∧
        s.CompletedTo t (vexReg dest) 2 len (fun j => (e j).value) ∧
        FlagsAdded s.mxcsr t.mxcsr 2 fun j => (e j).flags) ∧
    (s.VexOperandReady seg 4 len src3 → (∀ j < 4, (e j).unmasked = false) →
      ∃ t, exec (.vfnmsub213pdVex256 seg dest src2 src3) s = .next t ∧
        s.CompletedTo t (vexReg dest) 4 len (fun j => (e j).value) ∧
        FlagsAdded s.mxcsr t.mxcsr 4 fun j => (e j).flags)

/-- 41_vfnmsub_vex.md R133 and R136: `-(SRC2*SRC3) - DEST` per element. -/
def Obligations.Vfnmsub231pdVexResult : Prop :=
  ∀ (s : State) (seg : Option Seg) (dest src2 : BitVec 4) (src3 : VexOperand), s.VexReady →
    let len := vexLength seg src3.length
    let e := fun j => s.fnmsub (roundingOf (mxcsrRc s.mxcsr)) (mxcsrMasks s.mxcsr) j
      (lane (s.readV (vexReg src2)) j) (s.vexElem3 seg len j src3) (lane (s.readV (vexReg dest)) j)
    (s.VexOperandReady seg 2 len src3 → (∀ j < 2, (e j).unmasked = false) →
      ∃ t, exec (.vfnmsub231pdVex128 seg dest src2 src3) s = .next t ∧
        s.CompletedTo t (vexReg dest) 2 len (fun j => (e j).value) ∧
        FlagsAdded s.mxcsr t.mxcsr 2 fun j => (e j).flags) ∧
    (s.VexOperandReady seg 4 len src3 → (∀ j < 4, (e j).unmasked = false) →
      ∃ t, exec (.vfnmsub231pdVex256 seg dest src2 src3) s = .next t ∧
        s.CompletedTo t (vexReg dest) 4 len (fun j => (e j).value) ∧
        FlagsAdded s.mxcsr t.mxcsr 4 fun j => (e j).flags)

/-- 42_vfnmsub_evex.md R143, R146 and R149: `-(DEST*SRC3) - SRC2` per computed element; R141 for the others. (A register with embedded
rounding is `EmbeddedRounding`.) -/
def Obligations.Vfnmsub132pdEvexResult : Prop :=
  ∀ (s : State) (seg : Option Seg) (dest src2 : BitVec 5) (k : WriteMask), k.wf = true →
    let act := fun j => k.aaa = 0 ∨ (s.readK k.aaa).getLsbD j = true
    (∀ src3 : EvexOperand, s.EvexReady 2 → s.EvexOperandReady seg 2 (evexLength seg src3.length) k (evexOperandEr src3) →
      let e := fun j => s.fnmsub (roundingOf (mxcsrRc s.mxcsr)) (mxcsrMasks s.mxcsr) j
        (lane (s.readV dest) j)
        (s.evexElem3 seg 2 (evexLength seg src3.length) j (evexOperandEr src3))
        (lane (s.readV src2) j)
      (∀ j < 2, act j → (e j).unmasked = false) →
      ∃ t, exec (.vfnmsub132pdEvex128 seg dest src2 k src3) s = .next t ∧
        s.CompletedTo t dest 2 (evexLength seg src3.length)
          (fun j => if act j then (e j).value else if k.z then 0 else lane (s.readV dest) j) ∧
        FlagsAdded s.mxcsr t.mxcsr 2 fun j => if act j then (e j).flags else 0) ∧
    (∀ src3 : EvexOperand, s.EvexReady 4 → s.EvexOperandReady seg 4 (evexLength seg src3.length) k (evexOperandEr src3) →
      let e := fun j => s.fnmsub (roundingOf (mxcsrRc s.mxcsr)) (mxcsrMasks s.mxcsr) j
        (lane (s.readV dest) j)
        (s.evexElem3 seg 4 (evexLength seg src3.length) j (evexOperandEr src3))
        (lane (s.readV src2) j)
      (∀ j < 4, act j → (e j).unmasked = false) →
      ∃ t, exec (.vfnmsub132pdEvex256 seg dest src2 k src3) s = .next t ∧
        s.CompletedTo t dest 4 (evexLength seg src3.length)
          (fun j => if act j then (e j).value else if k.z then 0 else lane (s.readV dest) j) ∧
        FlagsAdded s.mxcsr t.mxcsr 4 fun j => if act j then (e j).flags else 0) ∧
    (∀ src3 : EvexOperandEr, s.EvexReady 8 → s.EvexOperandReady seg 8 (evexLength seg src3.length) k src3 → (∀ rc r, src3 ≠ .regEr rc r) →
      let e := fun j => s.fnmsub (roundingOf (mxcsrRc s.mxcsr)) (mxcsrMasks s.mxcsr) j
        (lane (s.readV dest) j)
        (s.evexElem3 seg 8 (evexLength seg src3.length) j src3)
        (lane (s.readV src2) j)
      (∀ j < 8, act j → (e j).unmasked = false) →
      ∃ t, exec (.vfnmsub132pdEvex512 seg dest src2 k src3) s = .next t ∧
        s.CompletedTo t dest 8 (evexLength seg src3.length)
          (fun j => if act j then (e j).value else if k.z then 0 else lane (s.readV dest) j) ∧
        FlagsAdded s.mxcsr t.mxcsr 8 fun j => if act j then (e j).flags else 0)

/-- 42_vfnmsub_evex.md R144, R147 and R150: `-(SRC2*DEST) - SRC3` per computed element; R141 for the others. (A register with embedded
rounding is `EmbeddedRounding`.) -/
def Obligations.Vfnmsub213pdEvexResult : Prop :=
  ∀ (s : State) (seg : Option Seg) (dest src2 : BitVec 5) (k : WriteMask), k.wf = true →
    let act := fun j => k.aaa = 0 ∨ (s.readK k.aaa).getLsbD j = true
    (∀ src3 : EvexOperand, s.EvexReady 2 → s.EvexOperandReady seg 2 (evexLength seg src3.length) k (evexOperandEr src3) →
      let e := fun j => s.fnmsub (roundingOf (mxcsrRc s.mxcsr)) (mxcsrMasks s.mxcsr) j
        (lane (s.readV src2) j)
        (lane (s.readV dest) j)
        (s.evexElem3 seg 2 (evexLength seg src3.length) j (evexOperandEr src3))
      (∀ j < 2, act j → (e j).unmasked = false) →
      ∃ t, exec (.vfnmsub213pdEvex128 seg dest src2 k src3) s = .next t ∧
        s.CompletedTo t dest 2 (evexLength seg src3.length)
          (fun j => if act j then (e j).value else if k.z then 0 else lane (s.readV dest) j) ∧
        FlagsAdded s.mxcsr t.mxcsr 2 fun j => if act j then (e j).flags else 0) ∧
    (∀ src3 : EvexOperand, s.EvexReady 4 → s.EvexOperandReady seg 4 (evexLength seg src3.length) k (evexOperandEr src3) →
      let e := fun j => s.fnmsub (roundingOf (mxcsrRc s.mxcsr)) (mxcsrMasks s.mxcsr) j
        (lane (s.readV src2) j)
        (lane (s.readV dest) j)
        (s.evexElem3 seg 4 (evexLength seg src3.length) j (evexOperandEr src3))
      (∀ j < 4, act j → (e j).unmasked = false) →
      ∃ t, exec (.vfnmsub213pdEvex256 seg dest src2 k src3) s = .next t ∧
        s.CompletedTo t dest 4 (evexLength seg src3.length)
          (fun j => if act j then (e j).value else if k.z then 0 else lane (s.readV dest) j) ∧
        FlagsAdded s.mxcsr t.mxcsr 4 fun j => if act j then (e j).flags else 0) ∧
    (∀ src3 : EvexOperandEr, s.EvexReady 8 → s.EvexOperandReady seg 8 (evexLength seg src3.length) k src3 → (∀ rc r, src3 ≠ .regEr rc r) →
      let e := fun j => s.fnmsub (roundingOf (mxcsrRc s.mxcsr)) (mxcsrMasks s.mxcsr) j
        (lane (s.readV src2) j)
        (lane (s.readV dest) j)
        (s.evexElem3 seg 8 (evexLength seg src3.length) j src3)
      (∀ j < 8, act j → (e j).unmasked = false) →
      ∃ t, exec (.vfnmsub213pdEvex512 seg dest src2 k src3) s = .next t ∧
        s.CompletedTo t dest 8 (evexLength seg src3.length)
          (fun j => if act j then (e j).value else if k.z then 0 else lane (s.readV dest) j) ∧
        FlagsAdded s.mxcsr t.mxcsr 8 fun j => if act j then (e j).flags else 0)

/-- 42_vfnmsub_evex.md R145, R148 and R151: `-(SRC2*SRC3) - DEST` per computed element; R141 for the others. (A register with embedded
rounding is `EmbeddedRounding`.) -/
def Obligations.Vfnmsub231pdEvexResult : Prop :=
  ∀ (s : State) (seg : Option Seg) (dest src2 : BitVec 5) (k : WriteMask), k.wf = true →
    let act := fun j => k.aaa = 0 ∨ (s.readK k.aaa).getLsbD j = true
    (∀ src3 : EvexOperand, s.EvexReady 2 → s.EvexOperandReady seg 2 (evexLength seg src3.length) k (evexOperandEr src3) →
      let e := fun j => s.fnmsub (roundingOf (mxcsrRc s.mxcsr)) (mxcsrMasks s.mxcsr) j
        (lane (s.readV src2) j)
        (s.evexElem3 seg 2 (evexLength seg src3.length) j (evexOperandEr src3))
        (lane (s.readV dest) j)
      (∀ j < 2, act j → (e j).unmasked = false) →
      ∃ t, exec (.vfnmsub231pdEvex128 seg dest src2 k src3) s = .next t ∧
        s.CompletedTo t dest 2 (evexLength seg src3.length)
          (fun j => if act j then (e j).value else if k.z then 0 else lane (s.readV dest) j) ∧
        FlagsAdded s.mxcsr t.mxcsr 2 fun j => if act j then (e j).flags else 0) ∧
    (∀ src3 : EvexOperand, s.EvexReady 4 → s.EvexOperandReady seg 4 (evexLength seg src3.length) k (evexOperandEr src3) →
      let e := fun j => s.fnmsub (roundingOf (mxcsrRc s.mxcsr)) (mxcsrMasks s.mxcsr) j
        (lane (s.readV src2) j)
        (s.evexElem3 seg 4 (evexLength seg src3.length) j (evexOperandEr src3))
        (lane (s.readV dest) j)
      (∀ j < 4, act j → (e j).unmasked = false) →
      ∃ t, exec (.vfnmsub231pdEvex256 seg dest src2 k src3) s = .next t ∧
        s.CompletedTo t dest 4 (evexLength seg src3.length)
          (fun j => if act j then (e j).value else if k.z then 0 else lane (s.readV dest) j) ∧
        FlagsAdded s.mxcsr t.mxcsr 4 fun j => if act j then (e j).flags else 0) ∧
    (∀ src3 : EvexOperandEr, s.EvexReady 8 → s.EvexOperandReady seg 8 (evexLength seg src3.length) k src3 → (∀ rc r, src3 ≠ .regEr rc r) →
      let e := fun j => s.fnmsub (roundingOf (mxcsrRc s.mxcsr)) (mxcsrMasks s.mxcsr) j
        (lane (s.readV src2) j)
        (s.evexElem3 seg 8 (evexLength seg src3.length) j src3)
        (lane (s.readV dest) j)
      (∀ j < 8, act j → (e j).unmasked = false) →
      ∃ t, exec (.vfnmsub231pdEvex512 seg dest src2 k src3) s = .next t ∧
        s.CompletedTo t dest 8 (evexLength seg src3.length)
          (fun j => if act j then (e j).value else if k.z then 0 else lane (s.readV dest) j) ∧
        FlagsAdded s.mxcsr t.mxcsr 8 fun j => if act j then (e j).flags else 0)

/-- 60_exceptions.md R165 and 42_vfnmsub_evex.md R152: embedded rounding suppresses all exceptions; the masked responses are
those of `fnmsub64` with all six masks set. -/
def Obligations.EmbeddedRounding : Prop :=
  ∀ (s : State) (seg : Option Seg) (dest src2 : BitVec 5) (k : WriteMask) (rc : BitVec 2) (r : BitVec 5),
    s.EvexReady 8 → k.wf = true →
    let act := fun j => k.aaa = 0 ∨ (s.readK k.aaa).getLsbD j = true
    (let e := fun j => s.fnmsub (roundingOf rc) (BitVec.allOnes 6) j
        (lane (s.readV dest) j) (lane (s.readV r) j) (lane (s.readV src2) j)
      ∃ t, exec (.vfnmsub132pdEvex512 seg dest src2 k (.regEr rc r)) s = .next t ∧ t.mxcsr = s.mxcsr ∧
        s.CompletedTo t dest 8 (evexLength seg 0)
          fun j => if act j then (e j).value else if k.z then 0 else lane (s.readV dest) j) ∧
    (let e := fun j => s.fnmsub (roundingOf rc) (BitVec.allOnes 6) j
        (lane (s.readV src2) j) (lane (s.readV dest) j) (lane (s.readV r) j)
      ∃ t, exec (.vfnmsub213pdEvex512 seg dest src2 k (.regEr rc r)) s = .next t ∧ t.mxcsr = s.mxcsr ∧
        s.CompletedTo t dest 8 (evexLength seg 0)
          fun j => if act j then (e j).value else if k.z then 0 else lane (s.readV dest) j) ∧
    (let e := fun j => s.fnmsub (roundingOf rc) (BitVec.allOnes 6) j
        (lane (s.readV src2) j) (lane (s.readV r) j) (lane (s.readV dest) j)
      ∃ t, exec (.vfnmsub231pdEvex512 seg dest src2 k (.regEr rc r)) s = .next t ∧ t.mxcsr = s.mxcsr ∧
        s.CompletedTo t dest 8 (evexLength seg 0)
          fun j => if act j then (e j).value else if k.z then 0 else lane (s.readV dest) j)

/-- 60_exceptions.md R162 and R163, the six VEX forms. -/
def Obligations.VexSimdFault : Prop :=
  ∀ (s : State) (o : FmaOrder) (l : Bool) (seg : Option Seg) (dest src2 : BitVec 4) (src3 : VexOperand), s.VexReady →
    let n := if l then 4 else 2
    let len := vexLength seg src3.length
    let e := fun j =>
      let xyz := roles o (lane (s.readV (vexReg dest)) j) (lane (s.readV (vexReg src2)) j) (s.vexElem3 seg len j src3)
      s.fnmsub (roundingOf (mxcsrRc s.mxcsr)) (mxcsrMasks s.mxcsr) j xyz.1 xyz.2.1 xyz.2.2
    s.VexOperandReady seg n len src3 → (∃ j < n, (e j).unmasked = true) →
      ∃ m, exec (vexInstr o l seg dest src2 src3) s = .fault (if s.sys.cr4.getLsbD 10 then .xm m else .udSimd m) ∧
        FaultFlagsAdded s.mxcsr m (mxcsrMasks s.mxcsr) (((List.range n).map fun j => (e j).flags).foldr (· ||| ·) 0)

/-- 60_exceptions.md R162 and R163, the nine EVEX forms. -/
def Obligations.EvexSimdFault : Prop :=
  ∀ (s : State) (o : FmaOrder) (seg : Option Seg) (dest src2 : BitVec 5) (k : WriteMask), k.wf = true →
    let act := fun j => k.aaa = 0 ∨ (s.readK k.aaa).getLsbD j = true
    (∀ l : Bool, let n := if l then 4 else 2
    (∀ src3 : EvexOperand, s.EvexReady n →
      let e := fun j =>
        let xyz := roles o (lane (s.readV dest) j) (lane (s.readV src2) j)
          (s.evexElem3 seg n (evexLength seg src3.length) j (evexOperandEr src3))
        s.fnmsub (roundingOf (mxcsrRc s.mxcsr)) (mxcsrMasks s.mxcsr) j xyz.1 xyz.2.1 xyz.2.2
      s.EvexOperandReady seg n (evexLength seg src3.length) k (evexOperandEr src3) → (∃ j < n, act j ∧ (e j).unmasked = true) →
      ∃ m, exec (evexInstr o l seg dest src2 k src3) s = .fault (if s.sys.cr4.getLsbD 10 then .xm m else .udSimd m) ∧
        FaultFlagsAdded s.mxcsr m (mxcsrMasks s.mxcsr)
          (((List.range n).map fun j => if act j then (e j).flags else 0).foldr (· ||| ·) 0))) ∧
    (∀ src3 : EvexOperandEr, s.EvexReady 8 →
      let e := fun j =>
        let xyz := roles o (lane (s.readV dest) j) (lane (s.readV src2) j)
          (s.evexElem3 seg 8 (evexLength seg src3.length) j src3)
        s.fnmsub (roundingOf (mxcsrRc s.mxcsr)) (mxcsrMasks s.mxcsr) j xyz.1 xyz.2.1 xyz.2.2
      s.EvexOperandReady seg 8 (evexLength seg src3.length) k src3 → (∀ rc r, src3 ≠ .regEr rc r) → (∃ j < 8, act j ∧ (e j).unmasked = true) →
      ∃ m, exec (evexInstr512 o seg dest src2 k src3) s = .fault (if s.sys.cr4.getLsbD 10 then .xm m else .udSimd m) ∧
        FaultFlagsAdded s.mxcsr m (mxcsrMasks s.mxcsr)
          (((List.range 8).map fun j => if act j then (e j).flags else 0).foldr (· ||| ·) 0))

/-- 10_state.md R22 and R24: the bits that are not read. -/
def Obligations.UnreadBits : Prop :=
  ∀ (i : Instr) (s : State) (v : Vector Vec 32) (k : Vector Word64 8),
    (∀ r b, b < vectorLength i → (State.readV { s with v := v, k := k } r).getLsbD b = (s.readV r).getLsbD b) →
    (∀ a j, 64 * j < vectorLength i → (State.readK { s with v := v, k := k } a).getLsbD j = (s.readK a).getLsbD j) →
    match exec i s with
    | .fault f => exec i { s with v := v, k := k } = .fault f
    | .refused r => exec i { s with v := v, k := k } = .refused r
    | .next t => ∃ t', exec i { s with v := v, k := k } = .next t' ∧ t'.readV (destOf i) = t.readV (destOf i) ∧
        t'.mxcsr = t.mxcsr ∧ t'.pc = t.pc

/-- 10_state.md R31: general registers are read only to form an address. -/
def Obligations.RegisterFormsIgnoreAddressing : Prop :=
  ∀ (i : Instr) (s : State) (x : Vector Word64 16) (mem : Memory) (base : Vector Word64 6) (text : ProgramText),
    memOperand i = none →
    let s' := { s with x := x, mem := mem, text := text, params := { s.params with segBase := base } }
    match exec i s with
    | .fault f => exec i s' = .fault f
    | .refused _ => False
    | .next t => ∃ t', exec i s' = .next t' ∧ t'.v = t.v ∧ t'.mxcsr = t.mxcsr ∧ t'.pc = t.pc

/-- 30_encoding.md R76, R77 and R78 in `Long64`. DEDUCED (log entry 15): the sum with the base of FS or GS is modulo 2^64
(40_fnmsub_lane.md R118). -/
def Obligations.EffectiveAddressLong64 : Prop :=
  ∀ (s : State) (seg : Option Seg) (a : Addr) (len n : Nat), s.params.mode = .long64 →
    ((s.effectiveAddress seg a len n).toNat : ℤ) =
      (s.addressInt len n a + (match seg with
        | some .fs => ((s.params.segBase[4]).toNat : ℤ)
        | some .gs => ((s.params.segBase[5]).toNat : ℤ)
        | _ => 0)) % 2 ^ 64

/-- 30_encoding.md R76, R77 and R78 in `Prot32`. DEDUCED (log entry 15): the sum with the segment base is modulo 2^32. -/
def Obligations.EffectiveAddressProt32 : Prop :=
  ∀ (s : State) (seg : Option Seg) (a : Addr) (len n : Nat), s.params.mode = .prot32 →
    let defaultBase := match a with
      | .based b _ => if b = 4 ∨ b = 5 then s.params.segBase[2] else s.params.segBase[3]
      | .sib _ _ b _ => if b = 4 ∨ b = 5 then s.params.segBase[2] else s.params.segBase[3]
      | _ => s.params.segBase[3]
    let base := match seg with
      | some .es => s.params.segBase[0]
      | some .cs => s.params.segBase[1]
      | some .ss => s.params.segBase[2]
      | some .ds => s.params.segBase[3]
      | some .fs => s.params.segBase[4]
      | some .gs => s.params.segBase[5]
      | none => defaultBase
    ((s.effectiveAddress seg a len n).toNat : ℤ) = (s.addressInt len n a + (base.toNat : ℤ)) % 2 ^ 32

/-- 20_memory.md R42 and R55. -/
def Obligations.LittleEndian : Prop :=
  (∀ (s : State) (a : Nat), s.elemReadable a = true →
      ∀ i < 8, s.readByte (a + i) = some ((s.readElem a).extractLsb' (8 * i) 8)) ∧
    (∀ (s : State) (a : Nat) (b : Byte), Memory.wf s.mem = true →
      (s.readByte a = some b ↔ a < addressSpace s.params.mode ∧ (a, b) ∈ s.mem))

/-- 40_fnmsub_lane.md R103. -/
def Obligations.FormatLandmarks : Prop :=
  valueQ 0x7FEFFFFFFFFFFFFF = (2 ^ 53 - 1) * 2 ^ 971 ∧ valueQ 0x0010000000000000 = (2 : ℚ) ^ (-1022 : ℤ) ∧
    valueQ 0x0000000000000001 = (2 : ℚ) ^ (-1074 : ℤ) ∧ valueQ 0x3FF0000000000000 = 1 ∧
    valueQ 0xBFF0000000000000 = -1 ∧ valueQ 0x8000000000000000 = 0

/-- 40_fnmsub_lane.md R104; 10_state.md R27. -/
def Obligations.RoundingEncoding : Prop :=
  roundingOf 0 = .nearestEven ∧ roundingOf 1 = .down ∧ roundingOf 2 = .up ∧ roundingOf 3 = .towardZero ∧
    mxcsrMasks 0xFFC0 = 0b111111 ∧ mxcsrRc 0xFFC0 = 3 ∧ mxcsrDaz 0xFFC0 = true ∧ mxcsrFtz 0xFFC0 = true ∧
    mxcsrFlags 0xFFC0 = 0 ∧ mxcsrMasks 0x3F = 0 ∧ mxcsrRc 0x3F = 0 ∧ mxcsrDaz 0x3F = false ∧ mxcsrFtz 0x3F = false ∧
    mxcsrFlags 0x3F = 0b111111 ∧ mxcsrMasks 0x1F80 = 0b111111 ∧ mxcsrRc 0x2000 = 1 ∧ mxcsrDaz 0x40 = true ∧
    mxcsrFtz 0x8000 = true ∧ mxcsrMasks 0x80 = flagIE ∧ mxcsrMasks 0x800 = flagUE

/-- 40_fnmsub_lane.md R105 and R100: no double rounding; R113: Precision. DAZ = 0 here: `DenormalOperand` says what DAZ = 1
does. -/
def Obligations.OneRounding : Prop :=
  ∀ (nan : BitVec 52) (rm : Rounding) (ftz : Bool) (masks : BitVec 6) (x y z : Elem),
    isFinite x = true → isFinite y = true → isFinite z = true → exactQ x y z ≠ 0 →
    let r := fnmsub64 nan rm false ftz masks x y z
    ∃ w, RoundedTo Representable RepresentableEven rm (exactQ x y z) w ∧
      ((2 : ℚ) ^ (-1022 : ℤ) ≤ |w| → |w| ≤ (2 ^ 53 - 1) * 2 ^ 971 →
        isFinite r.value = true ∧ valueQ r.value = w ∧
          r.flags &&& ~~~flagDE = if w = exactQ x y z then 0 else flagPE)

/-- 40_fnmsub_lane.md R111, R113 and R115. The value is stated for OM = 0 too, where R111 gives no response: there the exception
is unmasked and the value is never delivered (60_exceptions.md R162). That Precision is detected with an unmasked overflow
too, where R111 and R113 speak of the masked one, is DESIGN CHOICE (log entry 8; R115: Precision accompanies Overflow). DAZ = 0 here: `DenormalOperand` says what DAZ = 1 does. -/
def Obligations.OverflowResult : Prop :=
  ∀ (nan : BitVec 52) (rm : Rounding) (ftz : Bool) (masks : BitVec 6) (x y z : Elem),
    isFinite x = true → isFinite y = true → isFinite z = true → exactQ x y z ≠ 0 →
    let r := fnmsub64 nan rm false ftz masks x y z
    ∃ w, RoundedTo Representable RepresentableEven rm (exactQ x y z) w ∧
      ((2 ^ 53 - 1) * 2 ^ 971 < |w| →
        r.flags &&& ~~~flagDE = flagOE ||| flagPE ∧
          r.value = (match rm with
            | .nearestEven => if 0 < exactQ x y z then 0x7FF0000000000000 else 0xFFF0000000000000
            | .down => if 0 < exactQ x y z then 0x7FEFFFFFFFFFFFFF else 0xFFF0000000000000
            | .up => if 0 < exactQ x y z then 0x7FF0000000000000 else 0xFFEFFFFFFFFFFFFF
            | .towardZero => if 0 < exactQ x y z then 0x7FEFFFFFFFFFFFFF else 0xFFEFFFFFFFFFFFFF)) ∧
      (|w| ≤ (2 ^ 53 - 1) * 2 ^ 971 → r.flags.getLsbD 3 = false)

/-- 40_fnmsub_lane.md R112: tininess is judged after rounding. A zero product is `ExactZero`'s: that R106 is tried before R112
is DEDUCED (log entry 14). DAZ = 0 here: `DenormalOperand` says what DAZ = 1 does. -/
def Obligations.UnderflowResult : Prop :=
  ∀ (nan : BitVec 52) (rm : Rounding) (ftz : Bool) (masks : BitVec 6) (x y z : Elem),
    isFinite x = true → isFinite y = true → isFinite z = true → exactQ x y z ≠ 0 →
    valueQ x * valueQ y ≠ 0 →
    let r := fnmsub64 nan rm false ftz masks x y z
    ∃ w, RoundedTo Representable RepresentableEven rm (exactQ x y z) w ∧
      (|w| < (2 : ℚ) ^ (-1022 : ℤ) →
        if masks.getLsbD 4 = false then r.flags.getLsbD 4 = true ∧ r.unmasked = true
        else if ftz = true then
          r.value = (if 0 < exactQ x y z then 0 else 0x8000000000000000) ∧
            r.flags &&& ~~~flagDE = flagUE ||| flagPE
        else ∃ d, RoundedTo MultipleOfLeast MultipleOfLeastEven rm (exactQ x y z) d ∧ isFinite r.value = true ∧
          valueQ r.value = d ∧ (signBit r.value = true ↔ exactQ x y z < 0) ∧
            r.flags &&& ~~~flagDE = if d = exactQ x y z then 0 else flagUE ||| flagPE) ∧
      ((2 : ℚ) ^ (-1022 : ℤ) ≤ |w| → r.flags.getLsbD 4 = false ∧
        (|w| ≤ (2 ^ 53 - 1) * 2 ^ 971 → valueQ r.value = w))

/-- 40_fnmsub_lane.md R117, `exact_no_flag`. -/
def Obligations.ExactNoFlag : Prop :=
  ∀ (nan : BitVec 52) (rm : Rounding) (masks : BitVec 6) (x y z v : Elem),
    isFinite x = true → isFinite y = true → isFinite z = true →
    isDenormal x = false → isDenormal y = false → isDenormal z = false →
    isFinite v = true → isDenormal v = false → isZero v = false → valueQ v = exactQ x y z →
    fnmsub64 nan rm false false masks x y z = { value := v, flags := 0, unmasked := false }

/-- 40_fnmsub_lane.md R106. For a denormal `z` its last sentence meets R112; that R106 is tried first is DEDUCED (log entry 14).
DAZ = 0 here: `DenormalOperand` says what DAZ = 1 does. -/
def Obligations.ExactZero : Prop :=
  ∀ (nan : BitVec 52) (rm : Rounding) (ftz : Bool) (masks : BitVec 6) (x y z : Elem),
    isFinite x = true → isFinite y = true → isFinite z = true →
    let r := fnmsub64 nan rm false ftz masks x y z
    (exactQ x y z = 0 → r.flags &&& ~~~flagDE = 0 ∧
      r.value = if valueQ x * valueQ y = 0 ∧ (signBit x = signBit y ↔ signBit z = false) then
          (if signBit x = signBit y then 0x8000000000000000 else 0)
        else if rm = .down then 0x8000000000000000 else 0) ∧
    (valueQ x * valueQ y = 0 → isZero z = false →
      r.value = z ^^^ 0x8000000000000000 ∧ r.flags &&& ~~~flagDE = 0)

/-- 40_fnmsub_lane.md R107. -/
def Obligations.InfiniteResult : Prop :=
  ∀ (nan : BitVec 52) (rm : Rounding) (daz ftz : Bool) (masks : BitVec 6) (x y z : Elem),
    isNaN x = false → isNaN y = false → isNaN z = false →
    let x' := dazOperand daz x
    let y' := dazOperand daz y
    ¬(isInf x = true ∧ isZero y' = true) → ¬(isZero x' = true ∧ isInf y = true) →
    ¬((isInf x = true ∨ isInf y = true) ∧ isInf z = true ∧ (signBit x ^^ signBit y) ≠ signBit z) →
    let r := fnmsub64 nan rm daz ftz masks x y z
    ((isInf x = true ∨ isInf y = true) → r.flags &&& ~~~flagDE = 0 ∧
      r.value = if (signBit x ^^ signBit y) = true then 0x7FF0000000000000 else 0xFFF0000000000000) ∧
    (isInf z = true → r.flags &&& ~~~flagDE = 0 ∧
      r.value = if signBit z = true then 0x7FF0000000000000 else 0xFFF0000000000000)

/-- 40_fnmsub_lane.md R109. -/
def Obligations.InvalidOperation : Prop :=
  ∀ (nan : BitVec 52) (rm : Rounding) (daz ftz : Bool) (masks : BitVec 6) (x y z : Elem),
    isNaN x = false → isNaN y = false →
    let x' := dazOperand daz x
    let y' := dazOperand daz y
    ((isInf x = true ∧ isZero y' = true) ∨ (isZero x' = true ∧ isInf y = true) ∨
      ((isInf x = true ∨ isInf y = true) ∧ isInf z = true ∧ (signBit x ^^ signBit y) ≠ signBit z)) →
    let r := fnmsub64 nan rm daz ftz masks x y z
    (isNaN z = false → r.value = 0xFFF8000000000000 ∧ r.flags = flagIE ∧ r.unmasked = !masks.getLsbD 0) ∧
      (isQNaN z = true → isQNaN r.value = true ∧ r.flags = 0)

/-- 40_fnmsub_lane.md R108: the result is a draw among all QNaNs. -/
def Obligations.NanResult : Prop :=
  ∀ (rm : Rounding) (daz ftz : Bool) (masks : BitVec 6) (x y z : Elem),
    isNaN x = true ∨ isNaN y = true ∨ isNaN z = true →
    (∀ nan, isQNaN (fnmsub64 nan rm daz ftz masks x y z).value = true ∧
      (fnmsub64 nan rm daz ftz masks x y z).flags =
        if isSNaN x = true ∨ isSNaN y = true ∨ isSNaN z = true then flagIE else 0) ∧
    (∀ q, isQNaN q = true → ∃ nan, (fnmsub64 nan rm daz ftz masks x y z).value = q) ∧
    (∃ nan, (fnmsub64 nan rm daz ftz masks x y z).value = defaultNaN x y z)

/-- 40_fnmsub_lane.md R110. (That the computation goes on with the true value: `exactQ` in `OneRounding` and the others.) -/
def Obligations.DenormalOperand : Prop :=
  ∀ (nan : BitVec 52) (rm : Rounding) (ftz : Bool) (masks : BitVec 6) (x y z : Elem),
    let flush := fun v : Elem => if isDenormal v then (if signBit v then 0x8000000000000000 else 0) else v
    fnmsub64 nan rm true ftz masks x y z = fnmsub64 nan rm false ftz masks (flush x) (flush y) (flush z) ∧
      (fnmsub64 nan rm true ftz masks x y z).flags.getLsbD 1 = false ∧
      ((fnmsub64 nan rm false ftz masks x y z).flags.getLsbD 1 = true ↔
        (isDenormal x = true ∨ isDenormal y = true ∨ isDenormal z = true) ∧
          isNaN x = false ∧ isNaN y = false ∧ isNaN z = false ∧
          ¬(isInf x = true ∧ isZero y = true) ∧ ¬(isZero x = true ∧ isInf y = true) ∧
          ¬((isInf x = true ∨ isInf y = true) ∧ isInf z = true ∧ (signBit x ^^ signBit y) ≠ signBit z))

/-- 40_fnmsub_lane.md R115 (with R112 for Underflow unmasked), R114; 60_exceptions.md R162. -/
def Obligations.FlagSets : Prop :=
  ∀ (nan : BitVec 52) (rm : Rounding) (daz ftz : Bool) (masks : BitVec 6) (x y z : Elem),
    let r := fnmsub64 nan rm daz ftz masks x y z
    let listed := [0, flagIE, flagDE, flagPE, flagOE ||| flagPE, flagUE ||| flagPE, flagDE ||| flagPE,
      flagDE ||| flagOE ||| flagPE, flagDE ||| flagUE ||| flagPE]
    (masks.getLsbD 4 = true → r.flags ∈ listed) ∧
      (masks.getLsbD 4 = false → r.flags ∈ listed ++ [flagUE, flagDE ||| flagUE]) ∧
      r.flags.getLsbD 2 = false ∧ (r.unmasked = true ↔ r.flags &&& ~~~masks ≠ 0)

/-- 40_fnmsub_lane.md R117, `commutes`. -/
def Obligations.Commutes : Prop :=
  ∀ (nan : BitVec 52) (rm : Rounding) (daz ftz : Bool) (masks : BitVec 6) (x y z : Elem),
    isNaN x = false → isNaN y = false →
    fnmsub64 nan rm daz ftz masks x y z = fnmsub64 nan rm daz ftz masks y x z

/-- 40_fnmsub_lane.md R116: `fnmsub64` is a configuration field with a default. That the machine runs the default is the model's
choice (log entry 26). -/
def Obligations.ConfigurationDefault : Prop :=
  (∀ (i : Instr) (s : State), exec i s = execWith defaultConfiguration i s) ∧
    ∀ s : State, step s = stepWith defaultConfiguration s

/-- The frame rests on no property of the configuration fields (40_fnmsub_lane.md R116; 00_scope.md R7). -/
def Obligations.AnyConfigurationFrame : Prop :=
  ∀ (c : Configuration) (i : Instr) (s t : State), execWith c i s = .next t →
    (∀ q, q ≠ destOf i → t.readV q = s.readV q) ∧ (∀ b, vectorLength i ≤ b → (t.readV (destOf i)).getLsbD b = false) ∧
      t.k = s.k ∧ t.x = s.x ∧ t.sys = s.sys ∧ t.params = s.params ∧ t.text = s.text ∧
      (∀ a, t.readByte a = s.readByte a) ∧ t.mxcsr.extractLsb' 6 26 = s.mxcsr.extractLsb' 6 26 ∧
      (∀ b < 6, s.mxcsr.getLsbD b = true → t.mxcsr.getLsbD b = true)

/-- 40_fnmsub_lane.md R116: the meanings use `fnmsub64` and `EA` through the configuration only. -/
def Obligations.AnyConfigurationResult : Prop :=
  ∀ (c : Configuration) (s : State) (o : FmaOrder) (seg : Option Seg),
    (∀ (l : Bool) (dest src2 : BitVec 4) (src3 : VexOperand), s.VexReady →
      let n := if l then 4 else 2
      let len := vexLength seg src3.length
      let e := fun j =>
        let xyz := roles o (lane (s.readV (vexReg dest)) j) (lane (s.readV (vexReg src2)) j)
          (s.vexElem3 seg len j src3 c)
        s.fnmsub (roundingOf (mxcsrRc s.mxcsr)) (mxcsrMasks s.mxcsr) j xyz.1 xyz.2.1 xyz.2.2 c
      s.VexOperandReady seg n len src3 c → (∀ j < n, (e j).unmasked = false) →
      ∃ t, execWith c (vexInstr o l seg dest src2 src3) s = .next t ∧
        s.CompletedTo t (vexReg dest) n len (fun j => (e j).value) ∧ FlagsAdded s.mxcsr t.mxcsr n fun j => (e j).flags) ∧
    ∀ (dest src2 : BitVec 5) (k : WriteMask), k.wf = true →
    let act := fun j => k.aaa = 0 ∨ (s.readK k.aaa).getLsbD j = true
    (∀ l : Bool, let n := if l then 4 else 2
    (∀ src3 : EvexOperand, s.EvexReady n → s.EvexOperandReady seg n (evexLength seg src3.length) k (evexOperandEr src3) c →
      let e := fun j =>
        let xyz := roles o (lane (s.readV dest) j) (lane (s.readV src2) j)
          (s.evexElem3 seg n (evexLength seg src3.length) j (evexOperandEr src3) c)
        s.fnmsub (roundingOf (mxcsrRc s.mxcsr)) (mxcsrMasks s.mxcsr) j xyz.1 xyz.2.1 xyz.2.2 c
      (∀ j < n, act j → (e j).unmasked = false) →
      ∃ t, execWith c (evexInstr o l seg dest src2 k src3) s = .next t ∧
        s.CompletedTo t dest n (evexLength seg src3.length)
          (fun j => if act j then (e j).value else if k.z then 0 else lane (s.readV dest) j) ∧
        FlagsAdded s.mxcsr t.mxcsr n fun j => if act j then (e j).flags else 0)) ∧
    (∀ src3 : EvexOperandEr, s.EvexReady 8 → s.EvexOperandReady seg 8 (evexLength seg src3.length) k src3 c → (∀ rc r, src3 ≠ .regEr rc r) →
      let e := fun j =>
        let xyz := roles o (lane (s.readV dest) j) (lane (s.readV src2) j)
          (s.evexElem3 seg 8 (evexLength seg src3.length) j src3 c)
        s.fnmsub (roundingOf (mxcsrRc s.mxcsr)) (mxcsrMasks s.mxcsr) j xyz.1 xyz.2.1 xyz.2.2 c
      (∀ j < 8, act j → (e j).unmasked = false) →
      ∃ t, execWith c (evexInstr512 o seg dest src2 k src3) s = .next t ∧
        s.CompletedTo t dest 8 (evexLength seg src3.length)
          (fun j => if act j then (e j).value else if k.z then 0 else lane (s.readV dest) j) ∧
        FlagsAdded s.mxcsr t.mxcsr 8 fun j => if act j then (e j).flags else 0)

/-- 30_encoding.md R83. Where an R81 condition holds of the same bytes, the refusal is the model's choice (log entry 28). -/
def Obligations.HighRegisterRefused : Prop :=
  (∀ (m : CpuMode) (bs : List Byte), decode m bs = .outOfScope .highRegister → m = .prot32) ∧
  (∀ (b1 b2 op modrm : Byte) (rest : List Byte), b1.extractLsb' 6 2 = 0b11#2 → b1.extractLsb' 0 5 = 0b00010#5 → b2.getLsbD 7 = true → b2.extractLsb' 0 2 = 0b01#2 →
    (op = 0x9E ∨ op = 0xAE ∨ op = 0xBE) → 
      b1.getLsbD 5 = false ∨ b2.getLsbD 6 = false →
      decode .prot32 (0xC4 :: b1 :: b2 :: op :: modrm :: rest) = .outOfScope .highRegister) ∧
  (∀ (p0 p1 p2 op modrm : Byte) (rest : List Byte), p0.extractLsb' 6 2 = 0b11#2 → p0.extractLsb' 0 2 = 0b10#2 → p1.getLsbD 7 = true → p1.extractLsb' 0 2 = 0b01#2 →
    (op = 0x9E ∨ op = 0xAE ∨ op = 0xBE) → 
      p0.getLsbD 5 = false ∨ p0.getLsbD 4 = false ∨ p1.getLsbD 6 = false ∨ p2.getLsbD 3 = false →
      decode .prot32 (0x62 :: p0 :: p1 :: p2 :: op :: modrm :: rest) = .outOfScope .highRegister)

/-- 70_reset_and_hazards.md R190; 60_exceptions.md R166 (VEX) and R167 (EVEX): in these modes no VEX or EVEX prefix is
recognised. DEDUCED (log entry 11): how bytes are split into a row there, and #UD also where it extends a register number. -/
def Obligations.RealModeUndefined : Prop :=
  ∀ s : State, (s.params.mode = .realAddress ∨ s.params.mode = .virtual8086) → s.PcInRange →
    s.text.base.toNat + s.text.bytes.length ≤ addressSpace s.params.mode → s.text.base.toNat ≤ s.pc.toNat →
    let bs := s.text.bytes.drop (s.pc.toNat - s.text.base.toNat)
    decode s.params.mode bs ≠ .truncated →
    (∀ (b1 b2 op modrm : Byte) (rest : List Byte), bs = 0xC4 :: b1 :: b2 :: op :: modrm :: rest →
      b1.extractLsb' 6 2 = 0b11#2 → b1.extractLsb' 0 5 = 0b00010#5 → b2.getLsbD 7 = true → b2.extractLsb' 0 2 = 0b01#2 →
    (op = 0x9E ∨ op = 0xAE ∨ op = 0xBE) → step s = .fault .ud) ∧
    (∀ (p0 p1 p2 op modrm : Byte) (rest : List Byte), bs = 0x62 :: p0 :: p1 :: p2 :: op :: modrm :: rest →
      p0.extractLsb' 6 2 = 0b11#2 → p0.extractLsb' 0 2 = 0b10#2 → p1.getLsbD 7 = true → p1.extractLsb' 0 2 = 0b01#2 →
    (op = 0x9E ∨ op = 0xAE ∨ op = 0xBE) → step s = .fault .ud)

/-- 70_reset_and_hazards.md R190. PRESUMED (log entry 31): what else INIT resets. -/
def Obligations.InitKeeps : Prop :=
  ∀ s : State, (∀ r, s.afterInit.readV r = s.readV r) ∧ (∀ a, s.afterInit.readK a = s.readK a) ∧
    s.afterInit.mxcsr = s.mxcsr ∧ ∀ i, exec i s.afterInit = .fault .ud
end

