-- ==== Sys2Proof/Laws/State.lean ====
section
/-! SUPPORT. What each update of `State` does to each field. -/

namespace Sys2Proof.Machine

open Sys2Proof

variable (s : State)

@[simp] theorem setPc_v (a : Word64) : (s.setPc a).v = s.v := rfl
@[simp] theorem setPc_k (a : Word64) : (s.setPc a).k = s.k := rfl
@[simp] theorem setPc_mxcsr (a : Word64) : (s.setPc a).mxcsr = s.mxcsr := rfl
@[simp] theorem setPc_pc (a : Word64) : (s.setPc a).pc = a := rfl
@[simp] theorem setPc_x (a : Word64) : (s.setPc a).x = s.x := rfl
@[simp] theorem setPc_sys (a : Word64) : (s.setPc a).sys = s.sys := rfl
@[simp] theorem setPc_params (a : Word64) : (s.setPc a).params = s.params := rfl
@[simp] theorem setPc_mem (a : Word64) : (s.setPc a).mem = s.mem := rfl
@[simp] theorem setPc_text (a : Word64) : (s.setPc a).text = s.text := rfl
@[simp] theorem setPc_draws (a : Word64) : (s.setPc a).draws = s.draws := rfl

@[simp] theorem setMxcsr_v (m : BitVec 32) : (s.setMxcsr m).v = s.v := rfl
@[simp] theorem setMxcsr_k (m : BitVec 32) : (s.setMxcsr m).k = s.k := rfl
@[simp] theorem setMxcsr_mxcsr (m : BitVec 32) : (s.setMxcsr m).mxcsr = m := rfl
@[simp] theorem setMxcsr_pc (m : BitVec 32) : (s.setMxcsr m).pc = s.pc := rfl
@[simp] theorem setMxcsr_x (m : BitVec 32) : (s.setMxcsr m).x = s.x := rfl
@[simp] theorem setMxcsr_sys (m : BitVec 32) : (s.setMxcsr m).sys = s.sys := rfl
@[simp] theorem setMxcsr_params (m : BitVec 32) : (s.setMxcsr m).params = s.params := rfl
@[simp] theorem setMxcsr_mem (m : BitVec 32) : (s.setMxcsr m).mem = s.mem := rfl
@[simp] theorem setMxcsr_text (m : BitVec 32) : (s.setMxcsr m).text = s.text := rfl
@[simp] theorem setMxcsr_draws (m : BitVec 32) : (s.setMxcsr m).draws = s.draws := rfl

@[simp] theorem writeV_v (r : BitVec 5) (w : Vec) : (s.writeV r w).v = s.v.set r.toNat w r.isLt := rfl
@[simp] theorem writeV_k (r : BitVec 5) (w : Vec) : (s.writeV r w).k = s.k := rfl
@[simp] theorem writeV_mxcsr (r : BitVec 5) (w : Vec) : (s.writeV r w).mxcsr = s.mxcsr := rfl
@[simp] theorem writeV_pc (r : BitVec 5) (w : Vec) : (s.writeV r w).pc = s.pc := rfl
@[simp] theorem writeV_x (r : BitVec 5) (w : Vec) : (s.writeV r w).x = s.x := rfl
@[simp] theorem writeV_sys (r : BitVec 5) (w : Vec) : (s.writeV r w).sys = s.sys := rfl
@[simp] theorem writeV_params (r : BitVec 5) (w : Vec) : (s.writeV r w).params = s.params := rfl
@[simp] theorem writeV_mem (r : BitVec 5) (w : Vec) : (s.writeV r w).mem = s.mem := rfl
@[simp] theorem writeV_text (r : BitVec 5) (w : Vec) : (s.writeV r w).text = s.text := rfl
@[simp] theorem writeV_draws (r : BitVec 5) (w : Vec) : (s.writeV r w).draws = s.draws := rfl

@[simp] theorem nextDraw_v : s.nextDraw.v = s.v := rfl
@[simp] theorem nextDraw_k : s.nextDraw.k = s.k := rfl
@[simp] theorem nextDraw_mxcsr : s.nextDraw.mxcsr = s.mxcsr := rfl
@[simp] theorem nextDraw_pc : s.nextDraw.pc = s.pc := rfl
@[simp] theorem nextDraw_x : s.nextDraw.x = s.x := rfl
@[simp] theorem nextDraw_sys : s.nextDraw.sys = s.sys := rfl
@[simp] theorem nextDraw_params : s.nextDraw.params = s.params := rfl
@[simp] theorem nextDraw_mem : s.nextDraw.mem = s.mem := rfl
@[simp] theorem nextDraw_text : s.nextDraw.text = s.text := rfl
@[simp] theorem nextDraw_draws : s.nextDraw.draws = s.draws + 1 := rfl

@[simp] theorem readV_writeV_same (r : BitVec 5) (w : Vec) : (s.writeV r w).readV r = w := by
  simp [State.readV, State.writeV]

@[simp] theorem readV_writeV_other {q r : BitVec 5} (w : Vec) (h : q ≠ r) : (s.writeV r w).readV q = s.readV q := by
  have hn : r.toNat ≠ q.toNat := fun e => h (BitVec.eq_of_toNat_eq e.symm)
  simp [State.readV, State.writeV, hn]

@[simp] theorem readV_setPc (a : Word64) (r : BitVec 5) : (s.setPc a).readV r = s.readV r := rfl
@[simp] theorem readV_setMxcsr (m : BitVec 32) (r : BitVec 5) : (s.setMxcsr m).readV r = s.readV r := rfl
@[simp] theorem readV_nextDraw (r : BitVec 5) : s.nextDraw.readV r = s.readV r := rfl

/-! What a completed form leaves (`State.completed`). -/

variable (dest : BitVec 5) (suppress : Bool) (rs : List LaneResult) (len : Nat)

@[simp] theorem completed_k : (s.completed dest suppress rs len).k = s.k := rfl
@[simp] theorem completed_x : (s.completed dest suppress rs len).x = s.x := rfl
@[simp] theorem completed_sys : (s.completed dest suppress rs len).sys = s.sys := rfl
@[simp] theorem completed_params : (s.completed dest suppress rs len).params = s.params := rfl
@[simp] theorem completed_mem : (s.completed dest suppress rs len).mem = s.mem := rfl
@[simp] theorem completed_text : (s.completed dest suppress rs len).text = s.text := rfl
@[simp] theorem completed_draws : (s.completed dest suppress rs len).draws = s.draws + 1 := rfl
@[simp] theorem completed_pc : (s.completed dest suppress rs len).pc = s.nextPc len := rfl
@[simp] theorem completed_mxcsr : (s.completed dest suppress rs len).mxcsr =
    if suppress then s.mxcsr else mxcsrOr s.mxcsr (laneFlags rs) := rfl

@[simp] theorem completed_v : (s.completed dest suppress rs len).v =
    s.v.set dest.toNat (joinLanes (rs.map LaneResult.value)) dest.isLt := rfl

@[simp] theorem completed_readV_dest : (s.completed dest suppress rs len).readV dest =
    joinLanes (rs.map LaneResult.value) := by simp [State.completed]

@[simp] theorem completed_readV_other {q : BitVec 5} (h : q ≠ dest) :
    (s.completed dest suppress rs len).readV q = s.readV q := by simp [State.completed, h]

@[simp] theorem afterInit_v : s.afterInit.v = s.v := rfl
@[simp] theorem afterInit_k : s.afterInit.k = s.k := rfl
@[simp] theorem afterInit_mxcsr : s.afterInit.mxcsr = s.mxcsr := rfl
@[simp] theorem afterInit_mem : s.afterInit.mem = s.mem := rfl
@[simp] theorem afterInit_pc : s.afterInit.pc = State.reset.pc := rfl
@[simp] theorem afterInit_x : s.afterInit.x = State.reset.x := rfl
@[simp] theorem afterInit_mode : s.afterInit.params.mode = .realAddress := rfl
@[simp] theorem afterInit_text : s.afterInit.text = State.reset.text := rfl

/-- The state at a fault differs from the state before the step in MXCSR only (60_exceptions.md R176). -/
theorem atFault_eq_setMxcsr (f : Fault) : ∃ m, s.atFault f = s.setMxcsr m := by
  cases f <;> exact ⟨_, rfl⟩

end Sys2Proof.Machine
end

