-- ==== Sys2Proof/Laws/Ops.lean ====
section
/-! SUPPORT. What the shared operations can do, said once each. -/

namespace Sys2Proof.Machine

open Sys2Proof

/-! ## Outcomes -/

@[simp] theorem andThen_next {α β : Type} (a : α) (f : α → Host.Outcome β Fault Refusal) :
    andThen (.next a) f = f a := rfl

@[simp] theorem andThen_fault {α β : Type} (r : Fault) (f : α → Host.Outcome β Fault Refusal) :
    andThen (.fault r) f = .fault r := rfl

@[simp] theorem andThen_refused {α β : Type} (r : Refusal) (f : α → Host.Outcome β Fault Refusal) :
    andThen (.refused r) f = .refused r := rfl

theorem andThen_eq_next {α β : Type} {o : Host.Outcome α Fault Refusal} {f : α → Host.Outcome β Fault Refusal} {b : β}
    (h : andThen o f = .next b) : ∃ a, o = .next a ∧ f a = .next b := by
  cases o with
  | next a => exact ⟨a, rfl, h⟩
  | fault r => cases h
  | refused r => cases h

theorem raise_ne_next {α : Type} {f : Fault} {a : α} : (raise f : Host.Outcome α Fault Refusal) ≠ .next a := by
  intro h; cases h

/-! ## Elements of a vector -/

theorem joinLanes_getLsbD (es : List Elem) (i : Nat) (hi : i < 512) :
    (joinLanes es).getLsbD i = (es.getD (i / 64) 0).getLsbD (i % 64) := by
  induction es generalizing i with
  | nil => simp [joinLanes]
  | cons e es ih =>
    by_cases h : i < 64
    · have h0 : i / 64 = 0 := by omega
      simp [joinLanes, h, h0, Nat.mod_eq_of_lt h, hi]
    · have hd : i / 64 = (i - 64) / 64 + 1 := by omega
      have hm : i % 64 = (i - 64) % 64 := by omega
      have hz : e.getLsbD i = false := BitVec.getLsbD_of_ge _ _ (by omega)
      simp only [joinLanes, BitVec.getLsbD_or, BitVec.getLsbD_shiftLeft, BitVec.getLsbD_setWidth, hz, hi, h,
        ih (i - 64) (by omega), hd, hm, List.getD_cons_succ]
      simp

/-- Element `j` of a joined vector, and zero above the last element. -/
theorem lane_joinLanes (es : List Elem) (j : Nat) (hj : j < 8) : lane (joinLanes es) j = es.getD j 0 := by
  apply BitVec.eq_of_getLsbD_eq
  intro i hi
  have h1 : (64 * j + i) / 64 = j := by omega
  have h2 : (64 * j + i) % 64 = i := by omega
  simp [lane, joinLanes_getLsbD _ _ (show 64 * j + i < 512 by omega), h1, h2, hi]

/-- Nothing above the last element of a joined vector. -/
theorem joinLanes_upper (es : List Elem) (lo w : Nat) (h : 64 * es.length ≤ lo) :
    (joinLanes es).extractLsb' lo w = 0 := by
  apply BitVec.eq_of_getLsbD_eq
  intro i hi
  by_cases hb : lo + i < 512
  · have : es.length ≤ (lo + i) / 64 := by omega
    rw [BitVec.getLsbD_extractLsb', joinLanes_getLsbD _ _ hb, List.getD_eq_default _ _ this]
    simp
  · simp [BitVec.getLsbD_extractLsb', BitVec.getLsbD_of_ge (joinLanes es) (lo + i) (by omega)]

/-! ## Memory -/

theorem Memory.read_write_same (m : Memory) (a : Word64) (b : Byte) : Memory.read (Memory.write m a b) a.toNat = some b := by
  induction m with
  | nil => simp [Memory.write, Memory.read]
  | cons c t ih =>
    simp only [Memory.write]
    split
    · simp [Memory.read]
    · split
      · simp [Memory.read]
      · simp_all [Memory.read]

theorem Memory.read_write_other (m : Memory) (a : Word64) (b : Byte) (i : Nat) (h : i ≠ a.toNat) :
    Memory.read (Memory.write m a b) i = Memory.read m i := by
  have h' : a.toNat ≠ i := fun e => h e.symm
  induction m with
  | nil => simp [Memory.write, Memory.read, h']
  | cons c t ih =>
    simp only [Memory.write]
    split
    · simp [Memory.read, h']
    · split
      · rename_i hc
        simp [Memory.read, h', hc]
      · simp [Memory.read, ih]

theorem Memory.wf_cons {c : Host.Cell} {m : Memory} :
    Memory.wf (c :: m) = true ↔ c.1 < 2 ^ 64 ∧ (∀ d ∈ m.head?, c.1 < d.1) ∧ Memory.wf m = true := by
  cases m with
  | nil => simp [Memory.wf]
  | cons d m =>
    have key : Memory.wf (d :: m) = true → d.1 < 2 ^ 64 := by
      induction m generalizing d with
      | nil => simp [Memory.wf]
      | cons e m ih =>
        simp only [Memory.wf, Bool.and_eq_true, decide_eq_true_eq]
        intro h
        exact h.1.trans (ih e h.2)
    simp only [Memory.wf, Bool.and_eq_true, decide_eq_true_eq, List.head?_cons, Option.mem_some_iff, forall_eq']
    constructor
    · exact fun h => ⟨h.1.trans (key h.2), h.1, h.2⟩
    · exact fun h => ⟨h.2.1, h.2.2⟩

/-- The one memory operation keeps the canonical form. -/
theorem Memory.wf_write (m : Memory) (a : Word64) (b : Byte) (h : Memory.wf m = true) : Memory.wf (Memory.write m a b) = true := by
  have ha := a.isLt
  induction m with
  | nil => simp [Memory.write, Memory.wf, ha]
  | cons c t ih =>
    obtain ⟨h1, h2, h3⟩ := Memory.wf_cons.mp h
    simp only [Memory.write]
    split
    · exact Memory.wf_cons.mpr ⟨ha, by simpa using ‹_›, h⟩
    · split
      · rename_i hc
        exact Memory.wf_cons.mpr ⟨ha, by simpa [hc] using h2, h3⟩
      · rename_i h4 h5
        refine Memory.wf_cons.mpr ⟨h1, ?_, ih h3⟩
        cases t with
        | nil => simp [Memory.write]; omega
        | cons e u =>
          simp only [Memory.write]
          split
          · simp; omega
          · split
            · simp; omega
            · simpa using h2

/-! ## Flags of a fault -/

/-- 60_exceptions.md R162: the flags at a fault lie between the old ones and the old ones with all detected flags, and
hold a detected unmasked flag if there is one. -/
theorem faultFlags_bounds (r old masks detected : BitVec 6) :
    old &&& ~~~faultFlags r old masks detected = 0 ∧
    faultFlags r old masks detected &&& ~~~(old ||| detected) = 0 ∧
    (unmaskedOf masks detected ≠ 0 → faultFlags r old masks detected &&& unmaskedOf masks detected ≠ 0) := by
  unfold faultFlags
  split
  · refine ⟨?_, ?_, fun h => ?_⟩
    · ext i hi; simp; grind
    · ext i hi; simp [unmaskedOf]; grind
    · have : (old ||| detected &&& r ||| unmaskedOf masks detected) &&& unmaskedOf masks detected
          = unmaskedOf masks detected := by ext i hi; simp; grind
      rwa [this]
  · refine ⟨?_, ?_, fun _ => ‹_›⟩
    · ext i hi; simp; grind
    · ext i hi; simp; grind

/-! ## The templates -/

/-- If a form commits, no element has an unmasked exception and the state is `completed`. -/
theorem commit_eq_next {s t : State} {dest : BitVec 5} {masks : BitVec 6} {suppress : Bool} {rs : List LaneResult}
    {len : Nat} (h : s.commit dest masks suppress rs len = .next t) :
    rs.any LaneResult.unmasked = false ∧ t = s.completed dest suppress rs len := by
  unfold State.commit at h
  split at h
  · cases h
  · rename_i hu
    cases h
    exact ⟨by simpa using hu, rfl⟩

/-- Everything a VEX form that completes has done (41_vfnmsub_vex.md R130). -/
theorem vexFnmsub_eq_next {c : Configuration} {o : FmaOrder} {n : Nat} {seg : Option Seg} {dest src2 : BitVec 4} {src3 : VexOperand}
    {s t : State} (h : vexFnmsub c o n seg dest src2 src3 s = .next t) :
    s.vexCheck = none ∧ ∃ vc, s.vexOperand3 c seg n (vexLength seg src3.length) src3 = .next vc ∧
      ∃ rs, rs = (List.range n).map (s.computeLane c o (roundingOf (mxcsrRc s.mxcsr)) (mxcsrMasks s.mxcsr)
          (fun _ => true) false (s.readV (vexReg dest)) (s.readV (vexReg src2)) vc) ∧
        rs.any LaneResult.unmasked = false ∧
        t = s.completed (vexReg dest) false rs (vexLength seg src3.length) := by
  unfold vexFnmsub at h
  split at h
  · cases h
  · obtain ⟨vc, hc, hn⟩ := andThen_eq_next h
    exact ⟨‹_›, vc, hc, _, rfl, commit_eq_next hn⟩

/-- Everything an EVEX form that completes has done (42_vfnmsub_evex.md R140). -/
theorem evexFnmsub_eq_next {c : Configuration} {o : FmaOrder} {n : Nat} {seg : Option Seg} {dest src2 : BitVec 5} {k : WriteMask}
    {src3 : EvexOperandEr} {s t : State} (h : evexFnmsub c o n seg dest src2 k src3 s = .next t) :
    s.evexCheck n k = none ∧ ∃ vc, s.evexOperand3 c seg n (evexLength seg src3.length) k src3 = .next vc ∧
      ∃ rs, rs = (List.range n).map (s.computeLane c o (s.evexRounding src3) (s.evexMasks src3) (s.laneActive k) k.z
          (s.readV dest) (s.readV src2) vc) ∧
        rs.any LaneResult.unmasked = false ∧
        t = s.completed dest (embeddedRounding src3).isSome rs (evexLength seg src3.length) := by
  unfold evexFnmsub at h
  split at h
  · cases h
  · obtain ⟨vc, hc, hn⟩ := andThen_eq_next h
    exact ⟨‹_›, vc, hc, _, rfl, commit_eq_next hn⟩

/-- With all six exceptions masked no element has an unmasked one. -/
theorem fnmsub64_masked (nan : BitVec 52) (rm : Rounding) (daz ftz : Bool) (x y z : Elem) :
    (fnmsub64 nan rm daz ftz (BitVec.allOnes 6) x y z).unmasked = false := by
  simp [fnmsub64, laneResult, unmaskedOf]

theorem computeLane_masked (s : State) (o : FmaOrder) (rm : Rounding) (act : Nat → Bool) (zeroing : Bool)
    (a b c : Vec) (j : Nat) :
    (s.computeLane defaultConfiguration o rm (BitVec.allOnes 6) act zeroing a b c j).unmasked = false := by
  unfold State.computeLane
  split
  · exact fnmsub64_masked ..
  · rfl

end Sys2Proof.Machine
end

