-- ==== Sys2Proof/Laws/PerInstr.lean ====
section
/-! SUPPORT. The length of every instruction's encoding (30_encoding.md R79), one lemma per constructor. -/

namespace Sys2Proof.Laws.EncodeLength

open Sys2Proof

/-- The encoder writes as many bytes as R79 counts. -/
def Statement (i : Instr) : Prop := (encode i).length = i.length

theorem segBytes_length (seg : Option Seg) : (segBytes seg).length = segLength seg := by cases seg <;> rfl

theorem disp_bytes_length (d : Disp) : d.bytes.length = d.length := by cases d <;> rfl

theorem addr_bytes_length (reg : BitVec 3) (a : Addr) : (a.bytes reg).length = 1 + a.length := by
  cases a <;> simp [Addr.bytes, Addr.length, disp_bytes_length, le32Bytes, Nat.add_comm]

theorem encodeVex_length (o : FmaOrder) (l : Bool) (seg : Option Seg) (d s2 : BitVec 4) (s3 : VexOperand) :
    (encodeVex o l seg d s2 s3).length = vexLength seg s3.length := by
  cases s3 with
  | reg r => simp [encodeVex, vexLength, VexOperand.length, segBytes_length]
  | mem a =>
    simp [encodeVex, vexLength, VexOperand.length, segBytes_length, addr_bytes_length]
    omega

theorem encodeEvexReg_length (o : FmaOrder) (seg : Option Seg) (d s2 : BitVec 5) (k : WriteMask) (ll : BitVec 2)
    (b : Bool) (r : BitVec 5) : (encodeEvexReg o seg d s2 k ll b r).length = evexLength seg 0 := by
  simp [encodeEvexReg, evexLength, segBytes_length]

theorem encodeEvexMem_length (o : FmaOrder) (seg : Option Seg) (d s2 : BitVec 5) (k : WriteMask) (ll : BitVec 2)
    (b : Bool) (a : Addr) : (encodeEvexMem o seg d s2 k ll b a).length = evexLength seg a.length := by
  simp [encodeEvexMem, evexLength, segBytes_length, addr_bytes_length]; omega

theorem encodeEvex_length (o : FmaOrder) (l : Bool) (seg : Option Seg) (d s2 : BitVec 5) (k : WriteMask)
    (s3 : EvexOperand) : (encodeEvex o l seg d s2 k s3).length = evexLength seg s3.length := by
  cases s3 <;> simp [encodeEvex, EvexOperand.length, encodeEvexReg_length, encodeEvexMem_length]

theorem encodeEvex512_length (o : FmaOrder) (seg : Option Seg) (d s2 : BitVec 5) (k : WriteMask)
    (s3 : EvexOperandEr) : (encodeEvex512 o seg d s2 k s3).length = evexLength seg s3.length := by
  cases s3 <;> simp [encodeEvex512, EvexOperandEr.length, encodeEvexReg_length, encodeEvexMem_length]

theorem vfnmsub132pdVex128 (seg : Option Seg) (d s2 : BitVec 4) (s3 : VexOperand) :
    Statement (.vfnmsub132pdVex128 seg d s2 s3) := encodeVex_length ..

theorem vfnmsub213pdVex128 (seg : Option Seg) (d s2 : BitVec 4) (s3 : VexOperand) :
    Statement (.vfnmsub213pdVex128 seg d s2 s3) := encodeVex_length ..

theorem vfnmsub231pdVex128 (seg : Option Seg) (d s2 : BitVec 4) (s3 : VexOperand) :
    Statement (.vfnmsub231pdVex128 seg d s2 s3) := encodeVex_length ..

theorem vfnmsub132pdVex256 (seg : Option Seg) (d s2 : BitVec 4) (s3 : VexOperand) :
    Statement (.vfnmsub132pdVex256 seg d s2 s3) := encodeVex_length ..

theorem vfnmsub213pdVex256 (seg : Option Seg) (d s2 : BitVec 4) (s3 : VexOperand) :
    Statement (.vfnmsub213pdVex256 seg d s2 s3) := encodeVex_length ..

theorem vfnmsub231pdVex256 (seg : Option Seg) (d s2 : BitVec 4) (s3 : VexOperand) :
    Statement (.vfnmsub231pdVex256 seg d s2 s3) := encodeVex_length ..

theorem vfnmsub132pdEvex128 (seg : Option Seg) (d s2 : BitVec 5) (k : WriteMask) (s3 : EvexOperand) :
    Statement (.vfnmsub132pdEvex128 seg d s2 k s3) := encodeEvex_length ..

theorem vfnmsub213pdEvex128 (seg : Option Seg) (d s2 : BitVec 5) (k : WriteMask) (s3 : EvexOperand) :
    Statement (.vfnmsub213pdEvex128 seg d s2 k s3) := encodeEvex_length ..

theorem vfnmsub231pdEvex128 (seg : Option Seg) (d s2 : BitVec 5) (k : WriteMask) (s3 : EvexOperand) :
    Statement (.vfnmsub231pdEvex128 seg d s2 k s3) := encodeEvex_length ..

theorem vfnmsub132pdEvex256 (seg : Option Seg) (d s2 : BitVec 5) (k : WriteMask) (s3 : EvexOperand) :
    Statement (.vfnmsub132pdEvex256 seg d s2 k s3) := encodeEvex_length ..

theorem vfnmsub213pdEvex256 (seg : Option Seg) (d s2 : BitVec 5) (k : WriteMask) (s3 : EvexOperand) :
    Statement (.vfnmsub213pdEvex256 seg d s2 k s3) := encodeEvex_length ..

theorem vfnmsub231pdEvex256 (seg : Option Seg) (d s2 : BitVec 5) (k : WriteMask) (s3 : EvexOperand) :
    Statement (.vfnmsub231pdEvex256 seg d s2 k s3) := encodeEvex_length ..

theorem vfnmsub132pdEvex512 (seg : Option Seg) (d s2 : BitVec 5) (k : WriteMask) (s3 : EvexOperandEr) :
    Statement (.vfnmsub132pdEvex512 seg d s2 k s3) := encodeEvex512_length ..

theorem vfnmsub213pdEvex512 (seg : Option Seg) (d s2 : BitVec 5) (k : WriteMask) (s3 : EvexOperandEr) :
    Statement (.vfnmsub213pdEvex512 seg d s2 k s3) := encodeEvex512_length ..

theorem vfnmsub231pdEvex512 (seg : Option Seg) (d s2 : BitVec 5) (k : WriteMask) (s3 : EvexOperandEr) :
    Statement (.vfnmsub231pdEvex512 seg d s2 k s3) := encodeEvex512_length ..

end Sys2Proof.Laws.EncodeLength
end

