-- ==== Sys2Proof/Tests/Slice0.lean ====
section
/-! SUPPORT. The model's own tests. Expected bytes, fields and values are those of spec/95_test_vectors.md, whose ids
stand in the comments, or of the rule named. -/

namespace Sys2Proof.Tests

-- one proof at a time: each evaluation by the kernel holds a thread of its own
set_option Elab.async false

open Sys2Proof Sys2Proof.Machine

/-! ## Ill-formed terms are refused -/

/-- R76: `rm = 100` is no base register. -/
theorem test_wf_base_rsp : (Addr.based 4 .none).wf = false := by decide
/-- R76: R12 as a base needs a SIB byte as well. -/
theorem test_wf_base_r12 : (Addr.based 12 (.d8 0)).wf = false := by decide
/-- R76: base RBP needs a displacement. -/
theorem test_wf_base_rbp : (Addr.based 5 .none).wf = false := by decide
theorem test_wf_sib_base_r13 : (Addr.sib 0 1 13 .none).wf = false := by decide
theorem test_wf_base_rbp_disp : (Addr.based 5 (.d8 0)).wf = true := by decide
/-- R83: no high general register outside 64-bit mode. -/
theorem test_wf_prot32_base : (Addr.based 8 .none).wfIn .prot32 = false := by decide
theorem test_wf_prot32_index : (Addr.sib 0 9 0 .none).wfIn .prot32 = false := by decide
/-- R83: no vector register above 7 outside 64-bit mode. -/
theorem test_wf_prot32_dest :
    (Instr.vfnmsub132pdVex128 none 8 0 (.reg 0)).wf .prot32 = false := by decide
theorem test_wf_prot32_src3 :
    (Instr.vfnmsub132pdEvex512 none 0 0 ⟨0, false⟩ (.regEr 0 16)).wf .prot32 = false := by decide
/-- R81 line 7. -/
theorem test_wf_zeroing_without_mask :
    (Instr.vfnmsub213pdEvex256 none 0 0 ⟨0, true⟩ (.reg 0)).wf .long64 = false := by decide

/-! ## Decoding: bytes written out from the spec -/

/-- V-1, rule R131. -/
theorem test_decode_vex128_132 : decode .long64 [0xC4, 0xE2, 0xF1, 0x9E, 0xC2] =
    .instr (.vfnmsub132pdVex128 none 0 1 (.reg 2)) := by decide

/-- V-2, rule R132. -/
theorem test_decode_vex128_213 : decode .long64 [0xC4, 0xE2, 0xF1, 0xAE, 0xC2] =
    .instr (.vfnmsub213pdVex128 none 0 1 (.reg 2)) := by decide

/-- V-9: extension bits. -/
theorem test_decode_vex128_231_high : decode .long64 [0xC4, 0x42, 0x81, 0xBE, 0xC1] =
    .instr (.vfnmsub231pdVex128 none 8 15 (.reg 9)) := by decide

/-- V-4, rule R134. -/
theorem test_decode_vex256_132 : decode .long64 [0xC4, 0xE2, 0xF5, 0x9E, 0xC2] =
    .instr (.vfnmsub132pdVex256 none 0 1 (.reg 2)) := by decide

/-- V-5, rule R135. -/
theorem test_decode_vex256_213_mem : decode .long64 [0xC4, 0xE2, 0xDD, 0xAE, 0x18] =
    .instr (.vfnmsub213pdVex256 none 3 4 (.mem (.based 0 .none))) := by decide

/-- V-6, rule R136. -/
theorem test_decode_vex256_231_sib : decode .long64 [0xC4, 0xE2, 0xED, 0xBE, 0x4C, 0xCB, 0x10] =
    .instr (.vfnmsub231pdVex256 none 1 2 (.mem (.sib 3 1 3 (.d8 0x10)))) := by decide

/-- X-1, rule R143. -/
theorem test_decode_evex128_132_masked : decode .long64 [0x62, 0xF2, 0xF5, 0x09, 0x9E, 0xC2] =
    .instr (.vfnmsub132pdEvex128 none 0 1 ⟨1, false⟩ (.reg 2)) := by decide

/-- X-3, rule R144. -/
theorem test_decode_evex128_213_bcst : decode .long64 [0x62, 0xF2, 0xDD, 0x9A, 0xAE, 0x1A] =
    .instr (.vfnmsub213pdEvex128 none 3 4 ⟨2, true⟩ (.bcst (.based 2 .none))) := by decide

/-- X-4, rule R145. -/
theorem test_decode_evex128_231_high : decode .long64 [0x62, 0xA2, 0xF5, 0x00, 0xBE, 0xC2] =
    .instr (.vfnmsub231pdEvex128 none 16 17 ⟨0, false⟩ (.reg 18)) := by decide

/-- X-5, rule R146. -/
theorem test_decode_evex256_132_bcst : decode .long64 [0x62, 0xF2, 0xED, 0x39, 0x9E, 0x48, 0x01] =
    .instr (.vfnmsub132pdEvex256 none 1 2 ⟨1, false⟩ (.bcst (.based 0 (.d8 1)))) := by decide

/-- X-6, rule R147. -/
theorem test_decode_evex256_213_high : decode .long64 [0x62, 0xA2, 0xD5, 0x20, 0xAE, 0xE6] =
    .instr (.vfnmsub213pdEvex256 none 20 21 ⟨0, false⟩ (.reg 22)) := by decide

/-- X-7, rule R148. -/
theorem test_decode_evex256_231_mem : decode .long64 [0x62, 0xE2, 0xED, 0x23, 0xBE, 0x4E, 0x01] =
    .instr (.vfnmsub231pdEvex256 none 17 18 ⟨3, false⟩ (.mem (.based 6 (.d8 1)))) := by decide

/-- X-22, rule R149. -/
theorem test_decode_evex512_132_er : decode .long64 [0x62, 0xF2, 0xCD, 0xBD, 0x9E, 0xEF] =
    .instr (.vfnmsub132pdEvex512 none 5 6 ⟨5, true⟩ (.regEr 1 7)) := by decide

/-- X-9, rule R150. -/
theorem test_decode_evex512_213_bcst : decode .long64 [0x62, 0xF2, 0xED, 0x58, 0xAE, 0x08] =
    .instr (.vfnmsub213pdEvex512 none 1 2 ⟨0, false⟩ (.bcst (.based 0 .none))) := by decide

/-- X-11, rule R151. -/
theorem test_decode_evex512_231_high : decode .long64 [0x62, 0x02, 0x8D, 0x40, 0xBE, 0xFD] =
    .instr (.vfnmsub231pdEvex512 none 31 30 ⟨0, false⟩ (.reg 29)) := by decide

/-- E-1. -/
theorem test_decode_rsp_sib : decode .long64 [0xC4, 0xE2, 0xE9, 0xAE, 0x0C, 0x24] =
    .instr (.vfnmsub213pdVex128 none 1 2 (.mem (.sib 0 4 4 .none))) := by decide

/-- E-4. -/
theorem test_decode_r13_disp : decode .long64 [0xC4, 0xC2, 0xE9, 0xAE, 0x4D, 0x00] =
    .instr (.vfnmsub213pdVex128 none 1 2 (.mem (.based 13 (.d8 0)))) := by decide

/-- E-5. -/
theorem test_decode_no_base : decode .long64 [0xC4, 0xE2, 0xE9, 0xAE, 0x0C, 0x45, 0x00, 0x00, 0x00, 0x00] =
    .instr (.vfnmsub213pdVex128 none 1 2 (.mem (.sibNoBase 1 0 0))) := by decide

/-- E-7. -/
theorem test_decode_rip_relative : decode .long64 [0xC4, 0xE2, 0xE9, 0x9E, 0x0D, 0x00, 0x01, 0x00, 0x00] =
    .instr (.vfnmsub132pdVex128 none 1 2 (.mem (.relative 0x100))) := by decide

/-- E-10. -/
theorem test_decode_sib_high : decode .long64 [0x62, 0x92, 0xF5, 0x48, 0xBE, 0x84, 0x88, 0x7F, 0x00, 0x00, 0x00] =
    .instr (.vfnmsub231pdEvex512 none 0 1 ⟨0, false⟩ (.mem (.sib 2 9 8 (.d32 0x7F)))) := by decide

/-- E-16. -/
theorem test_decode_fs_override : decode .long64 [0x64, 0xC4, 0xE2, 0xF1, 0x9E, 0x00] =
    .instr (.vfnmsub132pdVex128 (some .fs) 0 1 (.mem (.based 0 .none))) := by decide

/-- V-16. -/
theorem test_decode_vex_x_ignored : decode .long64 [0xC4, 0xA2, 0xF1, 0x9E, 0xC2] =
    .instr (.vfnmsub132pdVex128 none 0 1 (.reg 2)) := by decide

/-- X-12: with a register operand and `b` = 1 the bits `L'L` are the rounding mode. -/
theorem test_decode_er : ([0x18, 0x38, 0x58, 0x78] : List Byte).map
      (fun p2 => decode .long64 [0x62, 0xF2, 0xED, p2, 0xAE, 0xCB]) =
    ([0, 1, 2, 3] : List (BitVec 2)).map fun rc =>
      .instr (.vfnmsub213pdEvex512 none 1 2 ⟨0, false⟩ (.regEr rc 3)) := by decide

/-- U-1: LOCK, 66, F2, F3 and REX before VEX. -/
theorem test_illegal_lead : ([0xF0, 0x66, 0xF2, 0xF3, 0x48] : List Byte).map
      (fun b => decode .long64 [b, 0xC4, 0xE2, 0xF1, 0x9E, 0xC2]) = List.replicate 5 (.illegal .leadByte) := by decide

/-- U-3 to U-7. -/
theorem test_illegal_evex :
    [decode .long64 [0x62, 0xF2, 0xF5, 0x88, 0x9E, 0xC2], decode .long64 [0x62, 0xF2, 0xF5, 0x68, 0x9E, 0xC2],
      decode .long64 [0x62, 0xF2, 0xF5, 0x78, 0x9E, 0x00], decode .long64 [0x62, 0xF2, 0xF1, 0x08, 0x9E, 0xC2],
      decode .long64 [0x62, 0xFA, 0xF5, 0x08, 0x9E, 0xC2]] =
    [.illegal .zeroingWithoutMask, .illegal .vectorLength, .illegal .vectorLength, .illegal .fixedP1,
      .illegal .reservedP0] := by decide

/-- O-1 to O-6. -/
theorem test_out_of_scope :
    [decode .long64 [0xC4, 0xE2, 0x71, 0x9E, 0xC2], decode .long64 [0xC4, 0xE2, 0xF1, 0x9F, 0xC2],
      decode .long64 [0xC5, 0xF1, 0x9E, 0xC2], decode .long64 [0x67, 0xC4, 0xE2, 0xF1, 0x9E, 0x00],
      decode .long64 [0x2E, 0x2E, 0xC4, 0xE2, 0xF1, 0x9E, 0xC2], decode .long64 [0x90]] =
    [.outOfScope .otherInstruction, .outOfScope .otherInstruction, .outOfScope .otherInstruction,
      .outOfScope .addressSize, .outOfScope .repeatedLegacy, .outOfScope .otherInstruction] := by decide

/-- R83: LES, and a register above 7, outside 64-bit mode. -/
theorem test_prot32_refused :
    [decode .prot32 [0xC4, 0x42, 0x81, 0xBE, 0xC1], decode .prot32 [0xC4, 0xC2, 0xF1, 0xBE, 0xC1]] =
    [.outOfScope .lesOrBound, .outOfScope .highRegister] := by decide

/-- R190: in real-address and virtual-8086 mode no row is recognised, whatever register it names. -/
theorem test_real_mode_illegal :
    [decode .realAddress [0xC4, 0xC2, 0xF1, 0xBE, 0xC1], decode .virtual8086 [0x62, 0xF2, 0xF5, 0x00, 0x9E, 0xC2]] =
    [.illegal .notRecognised, .illegal .notRecognised] := by decide

/-- The encoder writes the bytes of E-10, V-15 and X-22. -/
theorem test_encode :
    [encode (.vfnmsub231pdEvex512 none 0 1 ⟨0, false⟩ (.mem (.sib 2 9 8 (.d32 0x7F)))),
      encode (.vfnmsub132pdVex128 (some .cs) 0 1 (.reg 2)),
      encode (.vfnmsub132pdEvex512 none 5 6 ⟨5, true⟩ (.regEr 1 7))] =
    [[0x62, 0x92, 0xF5, 0x48, 0xBE, 0x84, 0x88, 0x7F, 0, 0, 0], [0x2E, 0xC4, 0xE2, 0xF1, 0x9E, 0xC2],
      [0x62, 0xF2, 0xCD, 0xBD, 0x9E, 0xEF]] := by decide

/-- The word of row 1 with ModRM C2: byte 0 in bits 7:0. -/
theorem test_table_word : decodeTableWord 40 0xC29EF1E2C4 = some (.vfnmsub132pdVex128 none 0 1 (.reg 2)) := by decide

/-! ## The element operation -/

/-- One row of 95_test_vectors.md section 2: rounding mode, DAZ, FTZ, x, y, z, result, flags. -/
def laneRow (rm : Rounding) (daz ftz : Bool) (x y z v : Elem) (f : BitVec 6) : Bool :=
  fnmsub64 0 rm daz ftz 63 x y z == { value := v, flags := f, unmasked := false }

/-- L-E1, L-E5, L-E6; rule R105. -/
theorem test_lane_fused :
    (laneRow .nearestEven false false 0x4000000000000000 0x4010000000000000 0x3FF8000000000000 0xC023000000000000 0 &&
      laneRow .nearestEven false false 0x3FF0000000000001 0x3FEFFFFFFFFFFFFE 0xBFF0000000000000 0x3970000000000000 0 &&
      laneRow .nearestEven false false 0x3FB999999999999A 0x4024000000000000 0xBFF0000000000000 0xBC90000000000000 0) = true := by decide +kernel

/-- L-Z1, L-Z2, L-Z3, L-Z7, L-Z10; rule R106. -/
theorem test_lane_zero_sign :
    (laneRow .nearestEven false false 0x0000000000000000 0x4014000000000000 0x0000000000000000 0x8000000000000000 0 &&
      laneRow .nearestEven false false 0x0000000000000000 0x4014000000000000 0x8000000000000000 0x0000000000000000 0 &&
      laneRow .down false false 0x0000000000000000 0x4014000000000000 0x8000000000000000 0x8000000000000000 0 &&
      laneRow .down false false 0x4000000000000000 0x4008000000000000 0xC018000000000000 0x8000000000000000 0 &&
      laneRow .nearestEven false false 0x0000000000000000 0x4014000000000000 0x401C000000000000 0xC01C000000000000 0) = true := by decide +kernel

/-- L-I1, L-I2, L-I4; rule R107. -/
theorem test_lane_infinity :
    (laneRow .nearestEven false false 0x7FF0000000000000 0x4000000000000000 0x3FF0000000000000 0xFFF0000000000000 0 &&
      laneRow .nearestEven false false 0x3FF0000000000000 0x3FF0000000000000 0x7FF0000000000000 0xFFF0000000000000 0 &&
      laneRow .nearestEven false false 0xFFF0000000000000 0x4000000000000000 0x3FF0000000000000 0x7FF0000000000000 0) = true := by decide +kernel

/-- L-N1, L-N2, L-N3; rule R109. -/
theorem test_lane_invalid :
    (laneRow .nearestEven false false 0x7FF0000000000000 0x0000000000000000 0x3FF0000000000000 0xFFF8000000000000 1 &&
      laneRow .nearestEven false false 0x0000000000000000 0xFFF0000000000000 0x3FF0000000000000 0xFFF8000000000000 1 &&
      laneRow .nearestEven false false 0x7FF0000000000000 0x3FF0000000000000 0xFFF0000000000000 0xFFF8000000000000 1) = true := by decide +kernel

/-- L-D1, L-D2, L-D3, L-D4; rule R110. -/
theorem test_lane_denormal :
    (laneRow .nearestEven false false 0x0000000000000001 0x4000000000000000 0x0000000000000000 0x8000000000000002 2 &&
      laneRow .nearestEven true false 0x0000000000000001 0x4000000000000000 0x0000000000000000 0x8000000000000000 0 &&
      laneRow .nearestEven false true 0x0000000000000001 0x4000000000000000 0x0000000000000000 0x8000000000000000 50 &&
      laneRow .nearestEven false false 0x3FF0000000000000 0x3FF0000000000000 0x0000000000000001 0xBFF0000000000000 34) = true := by decide +kernel

/-- L-O-RN-neg, L-O-RD-pos, L-O-RU-neg, L-O9, L-O10; rule R111. -/
theorem test_lane_overflow :
    (laneRow .nearestEven false false 0x7FEFFFFFFFFFFFFF 0x4000000000000000 0x0000000000000000 0xFFF0000000000000 40 &&
      laneRow .down false false 0x7FEFFFFFFFFFFFFF 0xC000000000000000 0x0000000000000000 0x7FEFFFFFFFFFFFFF 40 &&
      laneRow .up false false 0x7FEFFFFFFFFFFFFF 0x4000000000000000 0x0000000000000000 0xFFEFFFFFFFFFFFFF 40 &&
      laneRow .nearestEven false false 0x7FEFFFFFFFFFFFFF 0x3FF0000000000000 0x7C90000000000000 0xFFF0000000000000 40 &&
      laneRow .nearestEven false false 0x7FEFFFFFFFFFFFFF 0x3FF0000000000000 0x7C80000000000000 0xFFEFFFFFFFFFFFFF 32) = true := by decide +kernel

/-- L-U1, L-U2, L-U3, L-U4, L-U5, L-U8; rule R112. -/
theorem test_lane_underflow :
    (laneRow .nearestEven false false 0x0010000000000000 0x3FE0000000000001 0x0000000000000000 0x8008000000000000 48 &&
      laneRow .nearestEven false true 0x0010000000000000 0x3FE0000000000001 0x0000000000000000 0x8000000000000000 48 &&
      laneRow .nearestEven false false 0x0010000000000000 0x3FE0000000000000 0x0000000000000000 0x8008000000000000 0 &&
      laneRow .nearestEven false true 0x0010000000000000 0x3FE0000000000000 0x0000000000000000 0x8000000000000000 48 &&
      laneRow .nearestEven false false 0x0010000000000000 0x3FEFFFFFFFFFFFFF 0x0000000000000000 0x8010000000000000 48 &&
      laneRow .down false false 0x0000000000000001 0x3FE0000000000000 0x0000000000000000 0x8000000000000001 50) = true := by decide +kernel

/-- L-T-RN, L-T-RU, L-T-RN-ftz, L-T-RZ-ftz; rule R112. -/
theorem test_lane_tininess :
    (laneRow .nearestEven false false 0x20B0000000000002 0x1F4FFFFFFFFFFFFE 0x8000000000000001 0x8010000000000000 34 &&
      laneRow .up false false 0x20B0000000000002 0x1F4FFFFFFFFFFFFE 0x8000000000000001 0x800FFFFFFFFFFFFF 50 &&
      laneRow .nearestEven false true 0x20B0000000000002 0x1F4FFFFFFFFFFFFE 0x8000000000000001 0x8010000000000000 34 &&
      laneRow .towardZero false true 0x20B0000000000002 0x1F4FFFFFFFFFFFFE 0x8000000000000001 0x8000000000000000 50) = true := by decide +kernel

/-- L-P-RN, L-P-RD, L-P6; rule R113. -/
theorem test_lane_precision :
    (laneRow .nearestEven false false 0x3FF0000000000001 0x3FF0000000000001 0x0000000000000000 0xBFF0000000000002 32 &&
      laneRow .down false false 0x3FF0000000000001 0x3FF0000000000001 0x0000000000000000 0xBFF0000000000003 32 &&
      laneRow .nearestEven false false 0x3FF0000000000001 0x3FF0000000000000 0x3CA0000000000000 0xBFF0000000000002 32) = true := by decide +kernel

/-- R106: a zero product and a denormal z give -z, with DE alone (R110), FTZ = 1 or UM = 0 notwithstanding. -/
theorem test_lane_zero_product_denormal :
    (laneRow .nearestEven false true 0 0x4014000000000000 1 0x8000000000000001 2 &&
      fnmsub64 0 .down false false 0b101111 0x8000000000000000 0x4014000000000000 0x800FFFFFFFFFFFFF ==
        { value := 0x000FFFFFFFFFFFFF, flags := 2, unmasked := false }) = true := by decide +kernel

/-- L-Q1, L-Q2, L-Q6: IE for an SNaN only, and the default instantiation. -/
theorem test_lane_nan :
    ((fnmsub64 0 .nearestEven false false 63 0x7FF0000000000001 0x3FF0000000000000 0x3FF0000000000000).flags,
      (fnmsub64 0 .nearestEven false false 63 0x7FF8000000000AAA 0xFFF8000000000BBB 0x7FF8000000000CCC).flags,
      (fnmsub64 0 .nearestEven false false 63 0x7FF8000000000AAA 0x3FF0000000000000 1).flags,
      defaultNaN 0x3FF0000000000000 0xFFF8000000000BBB 0x7FF8000000000CCC,
      defaultNaN 0x3FF0000000000000 0x3FF0000000000000 0xFFF0000000000BBB) =
    (1, 0, 0, 0xFFF8000000000BBB, 0xFFF8000000000BBB) := by decide +kernel

/-- L-M2, L-M3, L-M4, L-M8. -/
theorem test_lane_unmasked :
    ((fnmsub64 0 .nearestEven false false 0b011111 0x3FF0000000000001 0x3FF0000000000001 0).unmasked,
      (fnmsub64 0 .nearestEven false false 0b100100 0x3FF0000000000001 0x3FF0000000000001 0).unmasked,
      (fnmsub64 0 .nearestEven false false 0b101111 0x0010000000000000 0x3FE0000000000000 0).unmasked,
      (fnmsub64 0 .nearestEven false false 0b011111 0x7FEFFFFFFFFFFFFF 0x4000000000000000 0).unmasked) =
    (true, false, true, true) := by decide +kernel

/-! ## One step of each instruction -/

/-- A launched machine, `pc` = 1000H, MXCSR = 1F80H. -/
def machine : State := State.reset.boot.setPc 0x1000

/-- A vector with the given elements and ones in every bit above them. -/
def ones (es : List Elem) : Vec := joinLanes (es ++ List.replicate (8 - es.length) (BitVec.allOnes 64))

def withV (s : State) (r : BitVec 5) (es : List Elem) : State := s.writeV r (ones es)
def withK (s : State) (a : BitVec 3) (w : Word64) : State := { s with k := s.k.set a.toNat w a.isLt }
def withX (s : State) (g : BitVec 4) (w : Word64) : State := { s with x := s.x.set g.toNat w g.isLt }
def elemBytes (e : Elem) : List Byte := (List.range 8).map fun i => e.extractLsb' (8 * i) 8
def bytesAt (a : Nat) : List Byte → Memory
  | [] => []
  | b :: bs => (a, b) :: bytesAt (a + 1) bs
/-- Doubles in memory from 8000H + `off` on. -/
def withMem (s : State) (off : Nat) (es : List Elem) : State := { s with mem := bytesAt (0x8000 + off) (es.flatMap elemBytes) }

/-- Whether the step over `bs` completes with `V[r] = w`, MXCSR and `pc` as given. -/
def runs (s : State) (bs : List Byte) (r : BitVec 5) (w : Vec) (mxcsr : BitVec 32) (pc : Word64) : Bool :=
  match step (s.placeText bs) with
  | .next t => t.readV r == w && t.mxcsr == mxcsr && t.pc == pc
  | _ => false

/-- Which fault the step over `bs` ends in, by vector number. -/
def faultsWith (s : State) (bs : List Byte) : Option Nat :=
  match step (s.placeText bs) with
  | .fault f => some (faultVector f)
  | _ => none

def two : State := withV (withV (withV machine 0 [0x4000000000000000, 0x4008000000000000])
  1 [0x3FF8000000000000, 0x3FE0000000000000]) 2 [0x4010000000000000, 0x4014000000000000]

/-- Elements 2.0, 3.0, -1.0, 0.5 in `p`, 1.5, 0.5, 10.0, 4.0 in `q`, 4.0, 5.0, 6.0, -16.0 in `r`. -/
def four (p q r : BitVec 5) : State :=
  withV (withV (withV machine p [0x4000000000000000, 0x4008000000000000, 0xBFF0000000000000, 0x3FE0000000000000])
    q [0x3FF8000000000000, 0x3FE0000000000000, 0x4024000000000000, 0x4010000000000000])
    r [0x4010000000000000, 0x4014000000000000, 0x4018000000000000, 0xC030000000000000]

def fourInMem (s : State) (off : Nat) : State :=
  withMem s off [0x4010000000000000, 0x4014000000000000, 0x4018000000000000, 0xC030000000000000]

def ramp : List Elem := [0x3FF0000000000000, 0x4000000000000000, 0x4008000000000000, 0x4010000000000000,
  0x4014000000000000, 0x4018000000000000, 0x401C000000000000, 0x4020000000000000]

def halves : List Elem := [0x3FE0000000000000, 0x3FF8000000000000, 0x3FE0000000000000, 0x3FF8000000000000,
  0x3FE0000000000000, 0x3FF8000000000000, 0x3FE0000000000000, 0x3FF8000000000000]

/-- `1 + 2^-52` in every element of `V[1]` and `V[2]`, +0 in `V[3]`. -/
def inexact8 : State := withV (withV (withV machine 1 (List.replicate 8 0x3FF0000000000001))
  2 (List.replicate 8 0x3FF0000000000001)) 3 (List.replicate 8 0)

/-- V-1. -/
theorem test_vfnmsub132pdVex128 :
    runs (two)
      [0xC4, 0xE2, 0xF1, 0x9E, 0xC2] 0 (joinLanes [0xC023000000000000, 0xC02F000000000000]) 0x1F80 0x1005 = true := by decide +kernel

/-- V-10. -/
theorem test_vfnmsub132pdVex128_flags :
    runs (withV (withV (withV machine 0 [0x3FF0000000000001, 1]) 1 [0, 0]) 2 [0x3FF0000000000001, 0x4000000000000000])
      [0xC4, 0xE2, 0xF1, 0x9E, 0xC2] 0 (joinLanes [0xBFF0000000000002, 0x8000000000000002]) 0x1FA2 0x1005 = true := by decide +kernel

/-- V-2. -/
theorem test_vfnmsub213pdVex128 :
    runs (two)
      [0xC4, 0xE2, 0xF1, 0xAE, 0xC2] 0 (joinLanes [0xC01C000000000000, 0xC01A000000000000]) 0x1F80 0x1005 = true := by decide +kernel

/-- V-12. -/
theorem test_vfnmsub213pdVex128_down :
    runs ((withV (withV (withV machine 0 [0x4008000000000000, 0x4008000000000000]) 1 [0x4000000000000000, 0x4000000000000000]) 2 [0xC018000000000000, 0xC018000000000000]).setMxcsr 0x3F80)
      [0xC4, 0xE2, 0xF1, 0xAE, 0xC2] 0 (joinLanes [0x8000000000000000, 0x8000000000000000]) 0x3F80 0x1005 = true := by decide +kernel

/-- V-3. -/
theorem test_vfnmsub231pdVex128 :
    runs (two)
      [0xC4, 0xE2, 0xF1, 0xBE, 0xC2] 0 (joinLanes [0xC020000000000000, 0xC016000000000000]) 0x1F80 0x1005 = true := by decide +kernel

/-- V-8. -/
theorem test_vfnmsub231pdVex128_same :
    runs (two)
      [0xC4, 0xE2, 0xF1, 0xBE, 0xC0] 0 (joinLanes [0xC014000000000000, 0xC012000000000000]) 0x1F80 0x1005 = true := by decide +kernel

/-- V-4. -/
theorem test_vfnmsub132pdVex256 :
    runs (four 0 1 2)
      [0xC4, 0xE2, 0xF5, 0x9E, 0xC2] 0 (joinLanes [0xC023000000000000, 0xC02F000000000000, 0xC010000000000000, 0x4010000000000000]) 0x1F80 0x1005 = true := by decide +kernel

/-- V-5. -/
theorem test_vfnmsub213pdVex256_mem :
    runs (withX (fourInMem (four 3 4 5) 0) 0 0x8000)
      [0xC4, 0xE2, 0xDD, 0xAE, 0x18] 3 (joinLanes [0xC01C000000000000, 0xC01A000000000000, 0x4010000000000000, 0x402C000000000000]) 0x1F80 0x1005 = true := by decide +kernel

/-- V-6. -/
theorem test_vfnmsub231pdVex256_sib :
    runs (withX (withX (fourInMem (four 1 2 5) 0x20) 3 0x8000) 1 2)
      [0xC4, 0xE2, 0xED, 0xBE, 0x4C, 0xCB, 0x10] 1 (joinLanes [0xC020000000000000, 0xC016000000000000, 0xC04D800000000000, 0x404FC00000000000]) 0x1F80 0x1007 = true := by decide +kernel

/-- X-1. -/
theorem test_vfnmsub132pdEvex128 :
    runs (withK two 1 1)
      [0x62, 0xF2, 0xF5, 0x09, 0x9E, 0xC2] 0 (joinLanes [0xC023000000000000, 0x4008000000000000]) 0x1F80 0x1006 = true := by decide +kernel

/-- X-18. -/
theorem test_vfnmsub132pdEvex128_all_masked :
    runs (withK (withV two 1 [0x7FF0000000000001, 1]) 1 0xFFFFFFFFFFFFFFFC)
      [0x62, 0xF2, 0xF5, 0x09, 0x9E, 0xC2] 0 (joinLanes [0x4000000000000000, 0x4008000000000000]) 0x1F80 0x1006 = true := by decide +kernel

/-- X-3. -/
theorem test_vfnmsub213pdEvex128_bcst :
    runs (withK (withMem (withX (withV (withV machine 3 [0x4000000000000000, 0x4008000000000000]) 4 [0x3FF8000000000000, 0x3FE0000000000000]) 2 0x8000) 0 [0x4010000000000000]) 2 2)
      [0x62, 0xF2, 0xDD, 0x9A, 0xAE, 0x1A] 3 (joinLanes [0, 0xC016000000000000]) 0x1F80 0x1006 = true := by decide +kernel

/-- X-4. -/
theorem test_vfnmsub231pdEvex128 :
    runs (withV (withV (withV machine 16 [0x4000000000000000, 0x4008000000000000]) 17 [0x3FF8000000000000, 0x3FE0000000000000]) 18 [0x4010000000000000, 0x4014000000000000])
      [0x62, 0xA2, 0xF5, 0x00, 0xBE, 0xC2] 16 (joinLanes [0xC020000000000000, 0xC016000000000000]) 0x1F80 0x1006 = true := by decide +kernel

/-- X-5. -/
theorem test_vfnmsub132pdEvex256_bcst :
    runs (withK (withMem (withX (four 1 2 5) 0 0x8000) 8 [0x4010000000000000]) 1 5)
      [0x62, 0xF2, 0xED, 0x39, 0x9E, 0x48, 0x01] 1 (joinLanes [0xC023000000000000, 0x4008000000000000, 0xC018000000000000, 0x3FE0000000000000]) 0x1F80 0x1007 = true := by decide +kernel

/-- X-6. -/
theorem test_vfnmsub213pdEvex256 :
    runs (four 20 21 22)
      [0x62, 0xA2, 0xD5, 0x20, 0xAE, 0xE6] 20 (joinLanes [0xC01C000000000000, 0xC01A000000000000, 0x4010000000000000, 0x402C000000000000]) 0x1F80 0x1006 = true := by decide +kernel

/-- X-7. -/
theorem test_vfnmsub231pdEvex256_mem :
    runs (withK (withX (fourInMem (four 17 18 5) 0x20) 6 0x8000) 3 0xE)
      [0x62, 0xE2, 0xED, 0x23, 0xBE, 0x4E, 0x01] 17 (joinLanes [0x4000000000000000, 0xC016000000000000, 0xC04D800000000000, 0x404FC00000000000]) 0x1F80 0x1007 = true := by decide +kernel

/-- F-9: only elements 0 to 3 readable, the others masked off. -/
theorem test_vfnmsub132pdEvex512_suppressed :
    runs (withK (withMem (withX (withV (withV machine 1 ramp) 2 halves) 7 0x8000) 0x40 (List.replicate 4 0x4000000000000000)) 2 0xF)
      [0x62, 0xF2, 0xED, 0x4A, 0x9E, 0x4F, 0x01] 1 (joinLanes [0xC004000000000000, 0xC016000000000000, 0xC01A000000000000, 0xC023000000000000, 0x4014000000000000, 0x4018000000000000, 0x401C000000000000, 0x4020000000000000]) 0x1F80 0x1007 = true := by decide +kernel

/-- X-9. -/
theorem test_vfnmsub213pdEvex512_bcst :
    runs (withMem (withX (withV (withV machine 1 ramp) 2 halves) 0 0x8000) 0 [0x4024000000000000])
      [0x62, 0xF2, 0xED, 0x58, 0xAE, 0x08] 1 (joinLanes [0xC025000000000000, 0xC02A000000000000, 0xC027000000000000, 0xC030000000000000, 0xC029000000000000, 0xC033000000000000, 0xC02B000000000000, 0xC036000000000000]) 0x1F80 0x1006 = true := by decide +kernel

/-- X-15: all masks clear, round down from EVEX.RC. -/
theorem test_vfnmsub213pdEvex512_er :
    runs (inexact8.setMxcsr 0)
      [0x62, 0xF2, 0xED, 0x38, 0xAE, 0xCB] 1 (joinLanes (List.replicate 8 0xBFF0000000000003)) 0 0x1006 = true := by decide +kernel

/-- X-10. -/
theorem test_vfnmsub231pdEvex512_zeroing :
    runs (withK (withV (withV (withV machine 0 ramp) 1 halves) 2 (List.replicate 8 0x4000000000000000)) 1 0xA5)
      [0x62, 0xF2, 0xF5, 0xC9, 0xBE, 0xC2] 0 (joinLanes [0xC000000000000000, 0, 0xC010000000000000, 0, 0, 0xC022000000000000, 0, 0xC026000000000000]) 0x1F80 0x1006 = true := by decide +kernel

/-! ## Faults and refusals -/

/-- F-1 and F-3: an SNaN with IM = 0, vector 19, or vector 6 when CR4.OSXMMEXCPT = 0. -/
theorem test_unmasked_invalid :
    let s := (withV (withV (withV machine 0 [0x3FF0000000000001, 0x7FF0000000000001]) 1 [0, 0])
      2 [0x3FF0000000000001, 0x3FF0000000000000]).setMxcsr 0x1F00
    (faultsWith s [0xC4, 0xE2, 0xF1, 0x9E, 0xC2],
      faultsWith { s with sys := { s.sys with cr4 := clearBit s.sys.cr4 10 } } [0xC4, 0xE2, 0xF1, 0x9E, 0xC2]) =
    (some 19, some 6) := by decide +kernel

/-- F-1, F-2, F-4: the default instantiation of the flags at the fault. -/
theorem test_two_phase_flags :
    (twoPhaseFlags 0 0b111110 (flagIE ||| flagPE), twoPhaseFlags 0 0b011111 (flagIE ||| flagPE),
      twoPhaseFlags 0 0b101111 flagUE) = (flagIE, flagIE ||| flagPE, flagUE) := by decide

/-- F-7: CR0.TS = 1. -/
theorem test_device_not_available :
    faultsWith { two with sys := { two.sys with cr0 := setBit two.sys.cr0 3 } } [0xC4, 0xE2, 0xF1, 0x9E, 0xC2] =
      some 7 := by decide +kernel

/-- F-13: the illegal encoding is found before the unreadable operand. -/
theorem test_illegal_first : faultsWith two [0x62, 0xF2, 0xF5, 0x88, 0x9E, 0x03] = some 6 := by decide +kernel

/-- F-11: a broadcast operand at 8004H with alignment checking active. -/
theorem test_alignment_check :
    let s := withX (withMem inexact8 0 [0, 0]) 0 0x8004
    faultsWith { s with sys := { s.sys with cr0 := setBit s.sys.cr0 18, rflags := setBit s.sys.rflags 18, cpl := 3 } }
      [0x62, 0xF2, 0xED, 0x58, 0xAE, 0x08] = some 17 := by decide +kernel

/-- R44: the same with a write mask that leaves no element computed. -/
theorem test_alignment_check_masked :
    let s := withK (withX (withMem inexact8 0 [0, 0]) 0 0x8004) 1 0
    faultsWith { s with sys := { s.sys with cr0 := setBit s.sys.cr0 18, rflags := setBit s.sys.rflags 18, cpl := 3 } }
      [0x62, 0xF2, 0xED, 0x59, 0xAE, 0x08] = some 17 := by decide +kernel

/-- F-8: an operand half outside the domain of memory ends in a memory fault, whatever its class. -/
theorem test_memory_fault :
    (match step ((withX (withMem two 0 [0]) 3 0x8000).placeText [0xC4, 0xE2, 0xF1, 0xAE, 0x03]) with
      | .fault (.memory _) => true
      | _ => false) = true := by decide +kernel

/-- F-9 with FAULT_SUPPRESSION = false. -/
theorem test_masked_off_refused :
    (match step ((({ withK (withMem (withX inexact8 7 0x8000) 0x40 [0, 0, 0, 0]) 2 0xF with
        params := { machine.params with faultSuppression := false } } : State)).placeText
        [0x62, 0xF2, 0xED, 0x4A, 0x9E, 0x4F, 0x01]) with
      | .refused .maskedOffFault => true
      | _ => false) = true := by decide +kernel

/-- P7 and R195: after the last instruction the run has ended; other bytes are refused. -/
theorem test_end_of_text :
    (match step ((machine.placeText []).setPc 0x1000), step (machine.placeText [0xC3]) with
      | .refused .endOfText, .refused (.outOfScope .otherInstruction) => true
      | _, _ => false) = true := by decide +kernel

/-! ## Addresses -/

/-- E-7, E-14, E-11: relative to the next instruction; scaled and sign-extended disp8; modulo 2^64. -/
theorem test_effective_address :
    (machine.effectiveAddress none (.relative 0x100) 9 1, machine.effectiveAddress none (.relative 0x10) 10 64,
      machine.effectiveAddress none (.based 0 (.d8 0xFF)) 7 64) = (0x1109, 0x101A, 0xFFFFFFFFFFFFFFC0) := by
  decide +kernel

/-- R77, log entry 15: in Prot32 the base EBP selects SS, and the sum is modulo 2^32. -/
theorem test_prot32_address :
    let s : State := { withX machine 5 0xFFFFFFFF00000010 with
      params := { machine.params with mode := .prot32, segBase := #v[0, 0, 0x1000, 0x2000, 0, 0] } }
    (s.effectiveAddress none (.based 5 (.d8 0xE0)) 6 1, s.effectiveAddress (some .ds) (.based 5 (.d8 0)) 7 1) =
      (0xFF0, 0x2010) := by decide +kernel

/-! ## Reset -/

theorem test_reset_inv : State.reset.Inv := by decide +kernel

/-- R190: at reset a form raises #UD. -/
theorem test_reset_ud :
    (match exec (.vfnmsub132pdVex128 none 0 1 (.reg 2)) State.reset with
      | .fault .ud => true
      | _ => false) = true := by decide +kernel

/-- R190: INIT keeps MXCSR and a vector register. -/
theorem test_init :
    let s := (two.setMxcsr 0x1FA0).afterInit
    s.mxcsr = 0x1FA0 ∧ s.readV 0 = two.readV 0 ∧ s.params.mode = .realAddress := by decide +kernel

/-! ## Witnesses

One for each statement that has hypotheses (one per clause where it has several): a concrete state and operands that meet
all of them together. -/

theorem runs_next {s : State} {bs : List Byte} {r : BitVec 5} {w : Vec} {m : BitVec 32} {p : Word64}
    (h : runs s bs r w m p = true) : ∃ t, step (s.placeText bs) = .next t ∧ t.pc = p := by
  unfold runs at h
  split at h
  · rename_i t ht
    simp only [Bool.and_eq_true, beq_iff_eq] at h
    exact ⟨t, ht, h.2⟩
  · cases h

/-- Whether an outcome is a next state. -/
def completes : Host.Outcome State Fault Refusal → Bool
  | .next _ => true
  | _ => false

theorem completes_next {o : Host.Outcome State Fault Refusal} (h : completes o = true) : ∃ t, o = .next t := by
  cases o with
  | next t => exact ⟨t, rfl⟩
  | fault f => cases h
  | refused r => cases h

/-- VFNMSUB213PD ymm3, ymm4, [rax] can read its operand here. -/
def memState : State := withX (fourInMem (four 3 4 5) 0) 0 0x8000
/-- A broadcast operand at [rdx], `K[2]` = 2. -/
def bcstState : State := withK (withMem (withX (withV (withV machine 3 [0x4000000000000000, 0x4008000000000000]) 4
  [0x3FF8000000000000, 0x3FE0000000000000]) 2 0x8000) 0 [0x4010000000000000]) 2 2
/-- A 32-byte operand at [rsi+20H], `K[3]` = 0EH. -/
def maskState : State := withK (withX (fourInMem (four 17 18 5) 0x20) 6 0x8000) 3 0xE
/-- A broadcast operand at [rax] for eight elements. -/
def zmmState : State := withMem (withX (withV (withV machine 1 ramp) 2 halves) 0 0x8000) 0 [0x4024000000000000]
/-- Elements 0 to 3 of a 64-byte operand at [rdi+40H] readable, `K[2]` = 0FH. -/
def partState : State := withK (withMem (withX (withV (withV machine 1 ramp) 2 halves) 7 0x8000) 0x40
  (List.replicate 4 0x4000000000000000)) 2 0xF
/-- The same with alignment checking active. -/
def checked (s : State) : State := { s with sys := { s.sys with
  cr0 := setBit s.sys.cr0 18, rflags := setBit s.sys.rflags 18, cpl := 3 } }

/-- R191, log entry 1. -/
theorem witness_placedWord :
    decodeTableWord 40 0xC29EF1E2C4 = some (.vfnmsub132pdVex128 none 0 1 (.reg 2)) := by
  decide +kernel

/-- An instruction of each length class, with the highest registers. -/
theorem witness_decodeEncode :
    [Instr.wf .long64 (.vfnmsub231pdEvex512 none 31 30 ⟨7, true⟩ (.regEr 3 29)),
      Instr.wf .long64 (.vfnmsub132pdVex256 (some .gs) 15 15 (.mem (.sib 3 15 15 (.d32 0x80000000)))),
      Instr.wf .prot32 (.vfnmsub213pdEvex128 (some .ss) 7 7 ⟨1, false⟩ (.bcst (.sibNoBase 0 7 0)))] = [true, true, true] := by
  decide +kernel

/-- R81: both clauses, the second also before a segment override. -/
theorem witness_leadByte :
    (encode (.vfnmsub132pdVex128 none 0 1 (.reg 2))).head? = some 0xC4 ∧
      (encode (.vfnmsub132pdEvex128 none 0 1 ⟨0, false⟩ (.reg 2))).head? = some 0x62 ∧ (0x40#8).extractLsb' 4 4 = 4 ∧
      (0x4F#8).extractLsb' 4 4 = 4 ∧ Instr.wf .long64 (.vfnmsub132pdVex128 (some .fs) 0 1 (.reg 2)) = true := by
  decide +kernel

/-- Bytes none of which is missing: each illegal line alone, and none. -/
theorem witness_evexIllegal :
    [decode .long64 [0x62, 0xF6, 0xF5, 0x08, 0x9E, 0xC2], decode .long64 [0x62, 0xF2, 0xF1, 0x08, 0x9E, 0xC2],
      decode .long64 [0x62, 0xF2, 0xF5, 0x68, 0x9E, 0xC2], decode .long64 [0x62, 0xF2, 0xF5, 0x88, 0x9E, 0xC2],
      decode .long64 [0x62, 0xF2, 0xF5, 0x78, 0x9E, 0xC2]] =
    [.illegal .reservedP0, .illegal .fixedP1, .illegal .vectorLength, .illegal .zeroingWithoutMask,
      .instr (.vfnmsub132pdEvex512 none 0 1 ⟨0, false⟩ (.regEr 3 2))] := by
  decide +kernel

/-- R82 and R83: a byte that begins nothing, VEX and EVEX bytes of another instruction, and 67H. -/
theorem witness_outOfScope :
    leadByte .long64 0x90 = none ∧ (0x71#8).getLsbD 7 = false ∧ (0x9F#8 ≠ 0x9E ∧ 0x9F#8 ≠ 0xAE ∧ 0x9F#8 ≠ 0xBE) ∧
      LeadByte.addressSize ∈ (splitLead .long64 [0x67, 0xC4, 0xE2, 0xF1, 0x9E, 0x00]).1 := by
  decide +kernel

/-- R83: two legacy bytes before a row, and LES and BOUND in 32-bit mode. -/
theorem witness_outOfScope_prefix :
    2 ≤ (splitLead .long64 [0x2E, 0x3E, 0xC4, 0xE2, 0xF1, 0x9E, 0xC2]).1.countP LeadByte.isLegacy ∧
      (0x00#8).extractLsb' 6 2 ≠ 0b11#2 ∧ (0xBF#8).extractLsb' 6 2 ≠ 0b11#2 ∧ leadByte .prot32 0x40 = none := by
  decide +kernel

/-- A state whose text at `pc` decodes; with RFLAGS.TF clear and set. -/
theorem witness_stepRunsDecoded :
    let s := two.placeText [0xC4, 0xE2, 0xF1, 0x9E, 0xC2]
    s.PcInRange ∧ s.text.base.toNat + s.text.bytes.length ≤ addressSpace s.params.mode ∧ s.text.base.toNat ≤ s.pc.toNat ∧
      decode s.params.mode (s.text.bytes.drop (s.pc.toNat - s.text.base.toNat)) =
        .instr (.vfnmsub132pdVex128 none 0 1 (.reg 2)) ∧
      completes (exec (.vfnmsub132pdVex128 none 0 1 (.reg 2)) s) = true ∧
      completes (exec (.vfnmsub132pdVex128 none 0 1 (.reg 2)) { s with sys := { s.sys with rflags := 0x102 } }) = true := by
  decide +kernel

/-- Illegal, other and truncated bytes at `pc`; `pc` before, just past and beyond the text. -/
theorem witness_stepWithoutInstruction :
    let s := machine.placeText [0xC3]
    [decode .long64 [0xF0, 0xC4, 0xE2, 0xF1, 0x9E, 0xC2], decode .long64 [0xC3], decode .long64 [0xC4, 0xE2]] =
        [.illegal .leadByte, .outOfScope .otherInstruction, .truncated] ∧
      s.PcInRange ∧ s.text.base.toNat + s.text.bytes.length ≤ addressSpace s.params.mode ∧ s.text.base = 0x1000 ∧
      ([0xFFF, 0x1001, 0x1002].all fun a => !(decide (s.text.base.toNat ≤ a) && decide (a < s.text.base.toNat + s.text.bytes.length))) = true := by
  decide +kernel

/-- A state within the invariant whose step completes, in a run that goes on. -/
theorem witness_step :
    (two.placeText [0xC4, 0xE2, 0xF1, 0x9E, 0xC2]).Inv ∧ (two.placeText [0xC4, 0xE2, 0xF1, 0x9E, 0xC2]).AllMasked ∧
      ∃ t, step (two.placeText [0xC4, 0xE2, 0xF1, 0x9E, 0xC2]) = .next t ∧ t.pc = 0x1005 ∧
        Reaches (two.placeText [0xC4, 0xE2, 0xF1, 0x9E, 0xC2]) t := by
  refine ⟨by decide +kernel, by decide +kernel, ?_⟩
  obtain ⟨t, ht, hp⟩ := runs_next test_vfnmsub132pdVex128
  exact ⟨t, ht, hp, .step ht (.refl t)⟩

/-- Each of the fifteen forms completes in some state (`ExecFrame`, `UnreadBits`). -/
theorem witness_execFrame :
    ([exec (.vfnmsub132pdVex128 none 0 1 (.reg 2)) two, exec (.vfnmsub213pdVex128 none 0 1 (.reg 2)) two,
      exec (.vfnmsub231pdVex128 none 0 1 (.reg 2)) two, exec (.vfnmsub132pdVex256 none 0 1 (.reg 2)) two,
      exec (.vfnmsub213pdVex256 none 0 1 (.reg 2)) two, exec (.vfnmsub231pdVex256 none 0 1 (.reg 2)) two,
      exec (.vfnmsub132pdEvex128 none 0 1 ⟨0, false⟩ (.reg 2)) two, exec (.vfnmsub213pdEvex128 none 0 1 ⟨0, false⟩ (.reg 2)) two,
      exec (.vfnmsub231pdEvex128 none 0 1 ⟨0, false⟩ (.reg 2)) two, exec (.vfnmsub132pdEvex256 none 0 1 ⟨0, false⟩ (.reg 2)) two,
      exec (.vfnmsub213pdEvex256 none 0 1 ⟨0, false⟩ (.reg 2)) two, exec (.vfnmsub231pdEvex256 none 0 1 ⟨0, false⟩ (.reg 2)) two,
      exec (.vfnmsub132pdEvex512 none 0 1 ⟨0, false⟩ (.reg 2)) two, exec (.vfnmsub213pdEvex512 none 0 1 ⟨0, false⟩ (.reg 2)) two,
      exec (.vfnmsub231pdEvex512 none 0 1 ⟨0, false⟩ (.reg 2)) two].map completes).all id = true := by
  decide +kernel

/-- A form without a memory operand that completes. -/
theorem witness_registerForms :
    memOperand (.vfnmsub132pdVex128 none 0 1 (.reg 2)) = none ∧
      completes (exec (.vfnmsub132pdVex128 none 0 1 (.reg 2)) two) = true := by
  exact ⟨rfl, by decide +kernel⟩

/-- Each enabling bit alone cleared, and CR0.TS alone set. -/
theorem witness_notEnabled :
    two.sys.cr4.getLsbD 18 = true ∧ two.sys.xcr0 = 0xE7 ∧ (clearBit two.sys.cr4 18).getLsbD 18 = false ∧
      (clearBit two.sys.xcr0 1).getLsbD 1 = false ∧ (clearBit two.sys.xcr0 7).getLsbD 7 = false ∧
      (setBit two.sys.cr0 3).getLsbD 3 = true ∧ two.params.hasFma = true ∧ two.params.mode = .long64 ∧
      Instr.wf .long64 (.vfnmsub132pdEvex128 none 0 1 ⟨1, true⟩ (.reg 2)) = true := by
  decide +kernel

/-- A form that ends in a fault (`FaultLeavesState`). -/
theorem witness_execFaults :
    exec (.vfnmsub132pdVex128 none 0 1 (.reg 2)) State.reset = .fault .ud := by
  rfl

/-- The eight bytes of element 0 readable, those of element 1 not; every element computed. -/
theorem witness_memoryFault :
    let s := withX (withMem two 0 [0]) 3 0x8000
    let i : Instr := .vfnmsub213pdVex128 none 0 1 (.mem (.based 3 .none))
    s.VexReady ∧ s.readByte ((s.effectiveAddress none (.based 3 .none) i.length 1).toNat + 8 * 1 + 0) = none ∧
      (s.effectiveAddress none (.based 3 .none) i.length 1).toNat = 0x8000 := by
  decide +kernel

/-- The operand of `witness_memoryFault` is the one `MemoryFaultRaised` speaks of. -/
theorem witness_memoryFault_operand :
    let s := withX (withMem two 0 [0]) 3 0x8000
    let i : Instr := .vfnmsub213pdVex128 none 0 1 (.mem (.based 3 .none))
    ∃ o, memOperand i = some o ∧ s.Ready i ∧ ∃ j < o.lanes, o.Computed s j ∧ o.Unreadable s i.length j := by
  exact ⟨_, rfl, witness_memoryFault.1, 1, by decide, .inl rfl, 0, by decide, witness_memoryFault.2.1⟩

/-- Elements 0 to 3 computed and readable, elements 4 to 7 neither. -/
theorem witness_maskedOff :
    partState.EvexReady 8 ∧ (∀ j < 8, (partState.readK 2).getLsbD j = true →
        ∀ b < 8, partState.readByte (0x8040 + 8 * j + b) ≠ none) ∧ partState.readByte (0x8040 + 8 * 7 + 7) = none ∧
      (partState.effectiveAddress none (.based 7 (.d8 1)) 7 64).toNat = 0x8040 := by
  decide +kernel

/-- The operand of `witness_maskedOff` is the one `MaskedOffBytes` speaks of. -/
theorem witness_maskedOff_operand :
    let i : Instr := .vfnmsub132pdEvex512 none 1 2 ⟨2, false⟩ (.mem (.based 7 (.d8 1)))
    ∃ o, memOperand i = some o ∧ partState.Ready i ∧
      (∀ j < o.lanes, o.Computed partState j → ¬o.Unreadable partState i.length j) ∧
      ∃ j < o.lanes, o.Unreadable partState i.length j := by
  obtain ⟨h1, h2, h3, h4⟩ := witness_maskedOff
  refine ⟨_, rfl, ⟨h1, rfl⟩, fun j hj hc ⟨b, hb, hn⟩ => ?_, 7, by decide, 7, by decide, ?_⟩
  · refine h2 j hj (hc.resolve_left (by decide)) b hb ?_
    rw [← h4]
    exact hn
  · rw [← h4] at h3
    exact h3

/-- A broadcast datum at 8004H, readable, eight elements computed, alignment checking active. -/
theorem witness_alignmentCheck :
    let s := checked (withX (withMem inexact8 0 [0, 0]) 0 0x8004)
    let o : MemOperand := ⟨none, .based 0 .none, 8, 8, true, ⟨0, false⟩⟩
    s.EvexReady 8 ∧ s.sys.cr0.getLsbD 18 = true ∧ s.sys.rflags.getLsbD 18 = true ∧ s.sys.cpl = 3 ∧
      o.elemAt s 6 0 % 8 ≠ 0 ∧ (∀ b < 8, s.readByte (o.elemAt s 6 0 + b) ≠ none) := by
  decide +kernel

/-- The operand of `witness_alignmentCheck` is the one `AlignmentCheck` speaks of. -/
theorem witness_alignmentCheck_operand :
    let s := checked (withX (withMem inexact8 0 [0, 0]) 0 0x8004)
    let i : Instr := .vfnmsub213pdEvex512 none 1 2 ⟨0, false⟩ (.bcst (.based 0 .none))
    let o : MemOperand := ⟨none, .based 0 .none, 8, 8, true, ⟨0, false⟩⟩
    memOperand i = some o ∧ o.bcst = true ∧ s.Ready i ∧ i.length = 6 ∧ ¬o.Unreadable s 6 0 ∧ ∃ j < o.lanes, o.Computed s j := by
  obtain ⟨h1, -, -, -, -, h6⟩ := witness_alignmentCheck
  exact ⟨rfl, rfl, ⟨h1, rfl⟩, rfl, fun ⟨b, hb, hn⟩ => h6 b hb hn, 0, by decide, .inl rfl⟩

/-- The same where no element is computed, no byte of the datum is readable, and its faults are suppressed. -/
theorem witness_alignmentCheck_unreadable :
    let s := checked (withX machine 0 0x8004)
    let i : Instr := .vfnmsub213pdEvex512 none 1 2 ⟨1, false⟩ (.bcst (.based 0 .none))
    let o : MemOperand := ⟨none, .based 0 .none, 8, 8, true, ⟨1, false⟩⟩
    memOperand i = some o ∧ s.EvexReady 8 ∧ s.acCheck = true ∧ o.elemAt s i.length 0 % 8 ≠ 0 ∧
      o.Unreadable s i.length 0 ∧ s.params.faultSuppression = true ∧ ∀ j < o.lanes, ¬o.Computed s j := by
  refine ⟨rfl, by decide +kernel, by decide +kernel, by decide +kernel, ⟨0, by decide, rfl⟩, rfl, ?_⟩
  rintro j - (h | h)
  · exact absurd h (by decide)
  · exact absurd h (by simp [checked, withX, machine, State.readK, State.boot, State.reset, State.setPc])

/-- R131 (register operands) and R134 (32 bytes at [rax]). -/
theorem witness_vfnmsub132pdVexResult :
    (two.VexReady ∧ two.VexOperandReady none 2 (vexLength none (VexOperand.length (.reg 2))) (.reg 2) ∧
      ∀ j < 2, (two.fnmsub (roundingOf (mxcsrRc two.mxcsr)) (mxcsrMasks two.mxcsr) j
          (lane (two.readV (vexReg 0)) j)
          (two.vexElem3 none (vexLength none (VexOperand.length (.reg 2))) j (.reg 2))
          (lane (two.readV (vexReg 1)) j)).unmasked = false) ∧
    memState.VexReady ∧ memState.VexOperandReady none 4 (vexLength none (VexOperand.length (.mem (.based 0 .none)))) (.mem (.based 0 .none)) ∧
      ∀ j < 4, (memState.fnmsub (roundingOf (mxcsrRc memState.mxcsr)) (mxcsrMasks memState.mxcsr) j
          (lane (memState.readV (vexReg 3)) j)
          (memState.vexElem3 none (vexLength none (VexOperand.length (.mem (.based 0 .none)))) j (.mem (.based 0 .none)))
          (lane (memState.readV (vexReg 4)) j)).unmasked = false := by
  exact ⟨⟨by decide +kernel, trivial, by decide +kernel⟩, by decide +kernel,
    (by decide +kernel : memState.FullReadable _ 4 fun _ => true), by decide +kernel⟩

/-- R132 (register operands) and R135 (32 bytes at [rax]). -/
theorem witness_vfnmsub213pdVexResult :
    (two.VexReady ∧ two.VexOperandReady none 2 (vexLength none (VexOperand.length (.reg 2))) (.reg 2) ∧
      ∀ j < 2, (two.fnmsub (roundingOf (mxcsrRc two.mxcsr)) (mxcsrMasks two.mxcsr) j
          (lane (two.readV (vexReg 1)) j)
          (lane (two.readV (vexReg 0)) j)
          (two.vexElem3 none (vexLength none (VexOperand.length (.reg 2))) j (.reg 2))).unmasked = false) ∧
    memState.VexReady ∧ memState.VexOperandReady none 4 (vexLength none (VexOperand.length (.mem (.based 0 .none)))) (.mem (.based 0 .none)) ∧
      ∀ j < 4, (memState.fnmsub (roundingOf (mxcsrRc memState.mxcsr)) (mxcsrMasks memState.mxcsr) j
          (lane (memState.readV (vexReg 4)) j)
          (lane (memState.readV (vexReg 3)) j)
          (memState.vexElem3 none (vexLength none (VexOperand.length (.mem (.based 0 .none)))) j (.mem (.based 0 .none)))).unmasked = false := by
  exact ⟨⟨by decide +kernel, trivial, by decide +kernel⟩, by decide +kernel,
    (by decide +kernel : memState.FullReadable _ 4 fun _ => true), by decide +kernel⟩

/-- R133 (register operands) and R136 (32 bytes at [rax]). -/
theorem witness_vfnmsub231pdVexResult :
    (two.VexReady ∧ two.VexOperandReady none 2 (vexLength none (VexOperand.length (.reg 2))) (.reg 2) ∧
      ∀ j < 2, (two.fnmsub (roundingOf (mxcsrRc two.mxcsr)) (mxcsrMasks two.mxcsr) j
          (lane (two.readV (vexReg 1)) j)
          (two.vexElem3 none (vexLength none (VexOperand.length (.reg 2))) j (.reg 2))
          (lane (two.readV (vexReg 0)) j)).unmasked = false) ∧
    memState.VexReady ∧ memState.VexOperandReady none 4 (vexLength none (VexOperand.length (.mem (.based 0 .none)))) (.mem (.based 0 .none)) ∧
      ∀ j < 4, (memState.fnmsub (roundingOf (mxcsrRc memState.mxcsr)) (mxcsrMasks memState.mxcsr) j
          (lane (memState.readV (vexReg 4)) j)
          (memState.vexElem3 none (vexLength none (VexOperand.length (.mem (.based 0 .none)))) j (.mem (.based 0 .none)))
          (lane (memState.readV (vexReg 3)) j)).unmasked = false := by
  exact ⟨⟨by decide +kernel, trivial, by decide +kernel⟩, by decide +kernel,
    (by decide +kernel : memState.FullReadable _ 4 fun _ => true), by decide +kernel⟩

/-- R143: a masked or broadcast memory operand. -/
theorem witness_vfnmsub132pdEvex128 :
    bcstState.EvexReady 2 ∧ WriteMask.wf ⟨2, true⟩ = true ∧
      bcstState.EvexOperandReady none 2 (evexLength none (EvexOperandEr.length (.bcst (.based 2 .none)))) ⟨2, true⟩ (.bcst (.based 2 .none)) ∧
      ∀ j < 2, (bcstState.fnmsub (roundingOf (mxcsrRc bcstState.mxcsr)) (mxcsrMasks bcstState.mxcsr) j
          (lane (bcstState.readV 3) j)
          (bcstState.evexElem3 none 2 (evexLength none (EvexOperandEr.length (.bcst (.based 2 .none)))) j (.bcst (.based 2 .none)))
          (lane (bcstState.readV 4) j)).unmasked = false := by
  exact ⟨by decide +kernel, by decide, (by decide +kernel : State.BroadcastReadable bcstState _ 2 (bcstState.laneActive ⟨2, true⟩)), by decide +kernel⟩

/-- R146: a masked or broadcast memory operand. -/
theorem witness_vfnmsub132pdEvex256 :
    maskState.EvexReady 4 ∧ WriteMask.wf ⟨3, false⟩ = true ∧
      maskState.EvexOperandReady none 4 (evexLength none (EvexOperandEr.length (.mem (.based 6 (.d8 1))))) ⟨3, false⟩ (.mem (.based 6 (.d8 1))) ∧
      ∀ j < 4, (maskState.fnmsub (roundingOf (mxcsrRc maskState.mxcsr)) (mxcsrMasks maskState.mxcsr) j
          (lane (maskState.readV 17) j)
          (maskState.evexElem3 none 4 (evexLength none (EvexOperandEr.length (.mem (.based 6 (.d8 1))))) j (.mem (.based 6 (.d8 1))))
          (lane (maskState.readV 18) j)).unmasked = false := by
  exact ⟨by decide +kernel, by decide, (by decide +kernel : State.FullReadable maskState _ 4 (maskState.laneActive ⟨3, false⟩)), by decide +kernel⟩

/-- R149: a masked or broadcast memory operand. -/
theorem witness_vfnmsub132pdEvex512 :
    zmmState.EvexReady 8 ∧ WriteMask.wf ⟨0, false⟩ = true ∧
      zmmState.EvexOperandReady none 8 (evexLength none (EvexOperandEr.length (.bcst (.based 0 .none)))) ⟨0, false⟩ (.bcst (.based 0 .none)) ∧
      ∀ j < 8, (zmmState.fnmsub (roundingOf (mxcsrRc zmmState.mxcsr)) (mxcsrMasks zmmState.mxcsr) j
          (lane (zmmState.readV 1) j)
          (zmmState.evexElem3 none 8 (evexLength none (EvexOperandEr.length (.bcst (.based 0 .none)))) j (.bcst (.based 0 .none)))
          (lane (zmmState.readV 2) j)).unmasked = false := by
  exact ⟨by decide +kernel, by decide, (by decide +kernel : State.BroadcastReadable zmmState _ 8 (zmmState.laneActive ⟨0, false⟩)), by decide +kernel⟩

/-- R144: a masked or broadcast memory operand. -/
theorem witness_vfnmsub213pdEvex128 :
    bcstState.EvexReady 2 ∧ WriteMask.wf ⟨2, true⟩ = true ∧
      bcstState.EvexOperandReady none 2 (evexLength none (EvexOperandEr.length (.bcst (.based 2 .none)))) ⟨2, true⟩ (.bcst (.based 2 .none)) ∧
      ∀ j < 2, (bcstState.fnmsub (roundingOf (mxcsrRc bcstState.mxcsr)) (mxcsrMasks bcstState.mxcsr) j
          (lane (bcstState.readV 4) j)
          (lane (bcstState.readV 3) j)
          (bcstState.evexElem3 none 2 (evexLength none (EvexOperandEr.length (.bcst (.based 2 .none)))) j (.bcst (.based 2 .none)))).unmasked = false := by
  exact ⟨by decide +kernel, by decide, (by decide +kernel : State.BroadcastReadable bcstState _ 2 (bcstState.laneActive ⟨2, true⟩)), by decide +kernel⟩

/-- R147: a masked or broadcast memory operand. -/
theorem witness_vfnmsub213pdEvex256 :
    maskState.EvexReady 4 ∧ WriteMask.wf ⟨3, false⟩ = true ∧
      maskState.EvexOperandReady none 4 (evexLength none (EvexOperandEr.length (.mem (.based 6 (.d8 1))))) ⟨3, false⟩ (.mem (.based 6 (.d8 1))) ∧
      ∀ j < 4, (maskState.fnmsub (roundingOf (mxcsrRc maskState.mxcsr)) (mxcsrMasks maskState.mxcsr) j
          (lane (maskState.readV 18) j)
          (lane (maskState.readV 17) j)
          (maskState.evexElem3 none 4 (evexLength none (EvexOperandEr.length (.mem (.based 6 (.d8 1))))) j (.mem (.based 6 (.d8 1))))).unmasked = false := by
  exact ⟨by decide +kernel, by decide, (by decide +kernel : State.FullReadable maskState _ 4 (maskState.laneActive ⟨3, false⟩)), by decide +kernel⟩

/-- R150: a masked or broadcast memory operand. -/
theorem witness_vfnmsub213pdEvex512 :
    zmmState.EvexReady 8 ∧ WriteMask.wf ⟨0, false⟩ = true ∧
      zmmState.EvexOperandReady none 8 (evexLength none (EvexOperandEr.length (.bcst (.based 0 .none)))) ⟨0, false⟩ (.bcst (.based 0 .none)) ∧
      ∀ j < 8, (zmmState.fnmsub (roundingOf (mxcsrRc zmmState.mxcsr)) (mxcsrMasks zmmState.mxcsr) j
          (lane (zmmState.readV 2) j)
          (lane (zmmState.readV 1) j)
          (zmmState.evexElem3 none 8 (evexLength none (EvexOperandEr.length (.bcst (.based 0 .none)))) j (.bcst (.based 0 .none)))).unmasked = false := by
  exact ⟨by decide +kernel, by decide, (by decide +kernel : State.BroadcastReadable zmmState _ 8 (zmmState.laneActive ⟨0, false⟩)), by decide +kernel⟩

/-- R145: a masked or broadcast memory operand. -/
theorem witness_vfnmsub231pdEvex128 :
    bcstState.EvexReady 2 ∧ WriteMask.wf ⟨2, true⟩ = true ∧
      bcstState.EvexOperandReady none 2 (evexLength none (EvexOperandEr.length (.bcst (.based 2 .none)))) ⟨2, true⟩ (.bcst (.based 2 .none)) ∧
      ∀ j < 2, (bcstState.fnmsub (roundingOf (mxcsrRc bcstState.mxcsr)) (mxcsrMasks bcstState.mxcsr) j
          (lane (bcstState.readV 4) j)
          (bcstState.evexElem3 none 2 (evexLength none (EvexOperandEr.length (.bcst (.based 2 .none)))) j (.bcst (.based 2 .none)))
          (lane (bcstState.readV 3) j)).unmasked = false := by
  exact ⟨by decide +kernel, by decide, (by decide +kernel : State.BroadcastReadable bcstState _ 2 (bcstState.laneActive ⟨2, true⟩)), by decide +kernel⟩

/-- R148: a masked or broadcast memory operand. -/
theorem witness_vfnmsub231pdEvex256 :
    maskState.EvexReady 4 ∧ WriteMask.wf ⟨3, false⟩ = true ∧
      maskState.EvexOperandReady none 4 (evexLength none (EvexOperandEr.length (.mem (.based 6 (.d8 1))))) ⟨3, false⟩ (.mem (.based 6 (.d8 1))) ∧
      ∀ j < 4, (maskState.fnmsub (roundingOf (mxcsrRc maskState.mxcsr)) (mxcsrMasks maskState.mxcsr) j
          (lane (maskState.readV 18) j)
          (maskState.evexElem3 none 4 (evexLength none (EvexOperandEr.length (.mem (.based 6 (.d8 1))))) j (.mem (.based 6 (.d8 1))))
          (lane (maskState.readV 17) j)).unmasked = false := by
  exact ⟨by decide +kernel, by decide, (by decide +kernel : State.FullReadable maskState _ 4 (maskState.laneActive ⟨3, false⟩)), by decide +kernel⟩

/-- R151: a masked or broadcast memory operand. -/
theorem witness_vfnmsub231pdEvex512 :
    zmmState.EvexReady 8 ∧ WriteMask.wf ⟨0, false⟩ = true ∧
      zmmState.EvexOperandReady none 8 (evexLength none (EvexOperandEr.length (.bcst (.based 0 .none)))) ⟨0, false⟩ (.bcst (.based 0 .none)) ∧
      ∀ j < 8, (zmmState.fnmsub (roundingOf (mxcsrRc zmmState.mxcsr)) (mxcsrMasks zmmState.mxcsr) j
          (lane (zmmState.readV 2) j)
          (zmmState.evexElem3 none 8 (evexLength none (EvexOperandEr.length (.bcst (.based 0 .none)))) j (.bcst (.based 0 .none)))
          (lane (zmmState.readV 1) j)).unmasked = false := by
  exact ⟨by decide +kernel, by decide, (by decide +kernel : State.BroadcastReadable zmmState _ 8 (zmmState.laneActive ⟨0, false⟩)), by decide +kernel⟩

/-- R165: with every exception unmasked in MXCSR. -/
theorem witness_embeddedRounding :
    (inexact8.setMxcsr 0).EvexReady 8 ∧ WriteMask.wf ⟨5, true⟩ = true ∧ mxcsrMasks (inexact8.setMxcsr 0).mxcsr = 0 := by
  decide +kernel

/-- F-1: element 1 an SNaN, IM = 0. -/
theorem witness_vexSimdFault :
    let s := (withV (withV (withV machine 0 [0x3FF0000000000001, 0x7FF0000000000001]) 1 [0, 0])
      2 [0x3FF0000000000001, 0x3FF0000000000000]).setMxcsr 0x1F00
    s.VexReady ∧ ∃ j < 2, (s.fnmsub (roundingOf (mxcsrRc s.mxcsr)) (mxcsrMasks s.mxcsr) j
      (lane (s.readV (vexReg 0)) j) (lane (s.readV (vexReg 2)) j) (lane (s.readV (vexReg 1)) j)).unmasked = true := by
  exact ⟨by decide +kernel, 1, by decide, by decide +kernel⟩

/-- The same under EVEX, the mask leaving element 1 computed. -/
theorem witness_evexSimdFault :
    let s := (withK (withV (withV (withV machine 0 [0x3FF0000000000001, 0x7FF0000000000001]) 1 [0, 0])
      2 [0x3FF0000000000001, 0x3FF0000000000000]) 1 2).setMxcsr 0x1F00
    s.EvexReady 2 ∧ s.EvexReady 8 ∧ (s.readK 1).getLsbD 1 = true ∧
      (s.fnmsub (roundingOf (mxcsrRc s.mxcsr)) (mxcsrMasks s.mxcsr) 1
        (lane (s.readV 0) 1) (lane (s.readV 2) 1) (lane (s.readV 1) 1)).unmasked = true := by
  decide +kernel

/-- Two states that differ in `V[0]` from bit 128 on and in `K[1]` from bit 2 on. -/
theorem witness_unreadBits :
    let s' := { two with v := (two.writeV 0 ((two.readV 0).extractLsb' 0 128 |>.setWidth 512)).v, k := (withK two 1 4).k }
    (∀ r b, b < 128 → (s'.readV r).getLsbD b = (two.readV r).getLsbD b) ∧
      (∀ a j, 64 * j < 128 → (s'.readK a).getLsbD j = (two.readK a).getLsbD j) ∧
      s'.readK 1 ≠ two.readK 1 ∧ s'.readV 0 ≠ two.readV 0 := by
  refine ⟨fun r b hb => ?_, fun a j hj => ?_, by decide +kernel, by decide +kernel⟩
  · by_cases h : r = 0
    · subst h
      show (State.readV (two.writeV 0 _) 0).getLsbD b = _
      rw [readV_writeV_same]
      simp [hb]
      omega
    · show (State.readV (two.writeV 0 _) r).getLsbD b = _
      rw [readV_writeV_other _ _ h]
  · have hj : j < 2 := by omega
    revert a
    interval_cases j <;> decide +kernel

/-- Both modes, at the wrap of the address space. -/
theorem witness_address :
    machine.params.mode = .long64 ∧ (machine.effectiveAddress none (.based 0 (.d8 0xFF)) 7 64).toNat = 2 ^ 64 - 64 ∧
      ({ machine with params := { machine.params with mode := .prot32 } } : State).params.mode = .prot32 := by
  decide +kernel

/-- A readable element, and memory in canonical form. -/
theorem witness_littleEndian :
    memState.elemReadable 0x8000 = true ∧ Memory.wf memState.mem = true ∧ (0x8007, 0x40#8) ∈ memState.mem := by
  decide +kernel

/-- Finite operands in range, above it, and below it (worked examples of R105, R111 and R112). -/
theorem witness_finite :
    ([0x3FF0000000000001, 0x3FEFFFFFFFFFFFFE, 0xBFF0000000000000, 0x7FEFFFFFFFFFFFFF, 0x4000000000000000,
      0x0010000000000000, 0x3FE0000000000001, 0] : List Elem).all isFinite = true ∧
      exactValue 0x3FF0000000000001 0x3FEFFFFFFFFFFFFE 0xBFF0000000000000 = 2 ^ 2044 ∧
      maxFinite < (exactValue 0x7FEFFFFFFFFFFFFF 0x4000000000000000 0).natAbs ∧
      0 < (exactValue 0x0010000000000000 0x3FE0000000000001 0).natAbs ∧
      (exactValue 0x0010000000000000 0x3FE0000000000001 0).natAbs < minNormal := by
  decide +kernel

/-- 1.0, 1.0 and 1.0 have the exact value -2, that of a normal number. -/
theorem witness_finite_exactQ :
    exactQ 0x3FF0000000000000 0x3FF0000000000000 0x3FF0000000000000 = -2 ∧ valueQ 0xC000000000000000 = -2 ∧
      isFinite 0xC000000000000000 = true ∧ isDenormal 0xC000000000000000 = false ∧ isZero 0xC000000000000000 = false := by
  have one : valueQ 0x3FF0000000000000 = 1 := by
    rw [valueQ, show signBit 0x3FF0000000000000 = false by decide, show significand 0x3FF0000000000000 = 2 ^ 52 by decide,
      show scaleField 0x3FF0000000000000 = 1023 by decide]
    norm_num
  refine ⟨by rw [exactQ, one]; norm_num, ?_, by decide, by decide, by decide⟩
  rw [valueQ, show signBit 0xC000000000000000 = true by decide, show significand 0xC000000000000000 = 2 ^ 52 by decide,
    show scaleField 0xC000000000000000 = 1024 by decide]
  norm_num

/-- R111 and R112: -2 * MAXF is above the largest finite value, -2^-1023 is below the least normal one. -/
theorem witness_overflow :
    exactQ 0x7FEFFFFFFFFFFFFF 0x4000000000000000 0 = -((2 ^ 53 - 1) * 2 ^ 972) ∧
      exactQ 0x0010000000000000 0x3FE0000000000000 0 = -(2 : ℚ) ^ (-1023 : ℤ) ∧ exactQ 0 0 0 = 0 ∧ valueQ 0 * valueQ 1 = 0 := by
  have val : ∀ v n k m, signBit v = n → significand v = k → scaleField v = m →
      valueQ v = (if n then -1 else 1) * k * (2 : ℚ) ^ ((m : ℤ) - 1075) := by
    intro v n k m h1 h2 h3
    rw [valueQ, h1, h2, h3]
  have v0 : valueQ 0 = 0 := by rw [val 0 false 0 1 (by decide) (by decide) (by decide)]; norm_num
  refine ⟨?_, ?_, by rw [exactQ, v0]; norm_num, by rw [v0, zero_mul]⟩
  · rw [exactQ, v0, val 0x7FEFFFFFFFFFFFFF false (2 ^ 53 - 1) 2046 (by decide) (by decide) (by decide),
      val 0x4000000000000000 false (2 ^ 52) 1024 (by decide) (by decide) (by decide), pow_succ _ 971]
    norm_num
    ring
  · rw [exactQ, v0, val 0x0010000000000000 false (2 ^ 52) 1 (by decide) (by decide) (by decide),
      val 0x3FE0000000000000 false (2 ^ 52) 1022 (by decide) (by decide) (by decide),
      show (-1023 : ℤ) = (1 : ℤ) - 1075 + 51 by norm_num, zpow_add₀ two_ne_zero]
    norm_num
    ring

/-- Exact cancellation, a zero product with a zero, and a zero product with a normal and a denormal z. -/
theorem witness_exactZero :
    exactValue 0x4000000000000000 0x4008000000000000 0xC018000000000000 = 0 ∧ exactValue 0 0x4014000000000000 0 = 0 ∧
      isZero 0x401C000000000000 = false ∧ isDenormal 1 = true ∧ isZero 1 = false ∧ isZero 0 = true := by
  decide +kernel

/-- R112: the product of the underflowing operands is not zero. -/
theorem witness_underflow :
    exactQ 0x0010000000000000 0x3FE0000000000000 0 ≠ 0 ∧ valueQ 0x0010000000000000 * valueQ 0x3FE0000000000000 ≠ 0 := by
  obtain ⟨-, h, -⟩ := witness_overflow
  have hne : exactQ 0x0010000000000000 0x3FE0000000000000 0 ≠ 0 := by
    rw [h]
    exact neg_ne_zero.2 (zpow_ne_zero _ two_ne_zero)
  refine ⟨hne, fun hp => hne ?_⟩
  rw [exactQ, hp, valueQ, show significand 0 = 0 by decide]
  simp

/-- R107: an infinite product, an infinite z, and both of one sign. -/
theorem witness_infinite :
    (isInf 0x7FF0000000000000 && !isNaN 0x7FF0000000000000 && !isZero (dazOperand true 0x4000000000000000)) = true ∧
      (signBit 0x7FF0000000000000 ^^ signBit 0x3FF0000000000000) = signBit 0x7FF0000000000000 := by
  decide +kernel

/-- R109: infinity times a zero, times a denormal under DAZ, and opposite infinities; a QNaN z. -/
theorem witness_invalid :
    (isInf 0x7FF0000000000000 && isZero (dazOperand false 0) && isZero (dazOperand true 1) && !isZero (dazOperand false 1) &&
      isQNaN 0x7FF8000000000CCC) = true ∧
      (signBit 0x7FF0000000000000 ^^ signBit 0x3FF0000000000000) ≠ signBit 0xFFF0000000000000 := by
  decide +kernel

/-- An SNaN and a QNaN; and operands that are none. -/
theorem witness_nan :
    (isNaN 0x7FF0000000000001 && isSNaN 0x7FF0000000000001 && isNaN 0x7FF8000000000AAA && !isSNaN 0x7FF8000000000AAA &&
      !isNaN 0x3FF0000000000000) = true := by
  decide +kernel

/-- MXCSR masks with UM = 1 and with UM = 0. -/
theorem witness_masks :
    (63#6).getLsbD 4 = true ∧ (0b101111#6).getLsbD 4 = false := by
  decide +kernel

/-- An instantiation that is not the default: `fnmsub64` answers `x` and no flag. -/
def otherConfiguration : Configuration := { defaultConfiguration with fnmsub64 := fun _ _ _ _ _ x _ _ => ⟨x, 0, false⟩ }

/-- Forms complete in that instantiation, with a result that is not the default's. -/
theorem witness_anyConfiguration :
    two.VexReady ∧ two.EvexReady 8 ∧ WriteMask.wf ⟨0, false⟩ = true ∧
      two.VexOperandReady none 2 (vexLength none (VexOperand.length (.reg 2))) (.reg 2) otherConfiguration ∧
      two.EvexOperandReady none 8 (evexLength none (EvexOperandEr.length (.reg 2))) ⟨0, false⟩ (.reg 2) otherConfiguration ∧
      (∀ j x y z, (two.fnmsub .nearestEven 63 j x y z otherConfiguration).unmasked = false) ∧
      completes (execWith otherConfiguration (.vfnmsub132pdVex128 none 0 1 (.reg 2)) two) = true ∧
      completes (execWith otherConfiguration (.vfnmsub132pdEvex512 none 0 1 ⟨0, false⟩ (.reg 2)) two) = true := by
  exact ⟨by decide +kernel, by decide +kernel, rfl, trivial, trivial, fun _ _ _ _ => rfl, by decide +kernel, by decide +kernel⟩

/-- R83: a VEX row that names register 9, and an EVEX row that does and has `z = 1` with `aaa = 000` besides. -/
theorem witness_highRegister :
    [decode .prot32 [0xC4, 0xC2, 0xF1, 0xBE, 0xC1], decode .prot32 [0x62, 0xD2, 0xF5, 0x88, 0x9E, 0xC1],
      decode .long64 [0x62, 0xD2, 0xF5, 0x88, 0x9E, 0xC1]] =
        [.outOfScope .highRegister, .outOfScope .highRegister, .illegal .zeroingWithoutMask] ∧
      (0xC2#8).extractLsb' 6 2 = 0b11#2 ∧ (0xC2#8).extractLsb' 0 5 = 0b00010#5 ∧ (0xF1#8).extractLsb' 0 2 = 0b01#2 ∧
      (0xC2#8).getLsbD 5 = false ∧ (0xD2#8).extractLsb' 6 2 = 0b11#2 ∧ (0xD2#8).extractLsb' 0 2 = 0b10#2 ∧
      (0xF5#8).extractLsb' 0 2 = 0b01#2 ∧ (0xD2#8).getLsbD 5 = false := by
  decide +kernel

/-- The machine at reset, a row that names register 9 at `pc`. -/
theorem witness_realMode :
    let s : State := { State.reset with text := { base := 0xFFFFFFF0, bytes := [0xC4, 0xC2, 0xF1, 0xBE, 0xC1] } }
    s.params.mode = .realAddress ∧ s.PcInRange ∧ s.text.base.toNat + s.text.bytes.length ≤ addressSpace s.params.mode ∧
      s.text.base.toNat ≤ s.pc.toNat ∧ decode s.params.mode s.text.bytes ≠ .truncated ∧
      s.text.bytes.drop (s.pc.toNat - s.text.base.toNat) = s.text.bytes := by
  decide +kernel
end Sys2Proof.Tests
end

section
/-! Every step keeps the invariant of the machine. All fifteen forms run through one of two templates, and a template
that completes leaves the state `State.completed`; so the invariant is proved of `State.completed` once. -/

namespace Sys2Proof.Machine

open Sys2Proof

/-! ## What the forms are, in terms of the two templates -/

@[simp] theorem evexOperandEr_length (src3 : EvexOperand) : (evexOperandEr src3).length = src3.length := by
  cases src3 <;> rfl

theorem exec_eq_execWith (i : Instr) (s : State) : exec i s = execWith defaultConfiguration i s := by
  cases i <;> rfl

/-- The six VEX forms are `VEX_FNMSUB` (41_vfnmsub_vex.md R130) of at most four elements. -/
theorem execWith_eq_vexFnmsub {i : Instr} (h : usesEvex i = false) :
    vectorLength i ≤ 256 ∧ ∃ seg dest src2 src3, destOf i = vexReg dest ∧ i.length = vexLength seg src3.length ∧
      ∀ c s, execWith c i s = vexFnmsub c (orderOfInstr i) (vectorLength i / 64) seg dest src2 src3 s := by
  cases i with
  | vfnmsub132pdVex128 seg dest src2 src3 | vfnmsub213pdVex128 seg dest src2 src3
  | vfnmsub231pdVex128 seg dest src2 src3 | vfnmsub132pdVex256 seg dest src2 src3
  | vfnmsub213pdVex256 seg dest src2 src3 | vfnmsub231pdVex256 seg dest src2 src3 =>
    exact ⟨by simp [vectorLength], seg, dest, src2, src3, rfl, rfl, fun _ _ => by simp only [vectorLength, Nat.reduceDiv]; rfl⟩
  | _ => cases h

/-- The nine EVEX forms are `EVEX_FNMSUB` (42_vfnmsub_evex.md R140). -/
theorem execWith_eq_evexFnmsub {i : Instr} (h : usesEvex i = true) :
    ∃ seg src2 k src3, i.length = evexLength seg src3.length ∧
      ∀ c s, execWith c i s = evexFnmsub c (orderOfInstr i) (vectorLength i / 64) seg (destOf i) src2 k src3 s := by
  cases i with
  | vfnmsub132pdEvex128 seg dest src2 k src3 | vfnmsub213pdEvex128 seg dest src2 k src3
  | vfnmsub231pdEvex128 seg dest src2 k src3 | vfnmsub132pdEvex256 seg dest src2 k src3
  | vfnmsub213pdEvex256 seg dest src2 k src3 | vfnmsub231pdEvex256 seg dest src2 k src3 =>
    exact ⟨seg, src2, k, evexOperandEr src3, by simp [Instr.length], fun _ _ => by simp only [vectorLength, Nat.reduceDiv]; rfl⟩
  | vfnmsub132pdEvex512 seg dest src2 k src3 | vfnmsub213pdEvex512 seg dest src2 k src3
  | vfnmsub231pdEvex512 seg dest src2 k src3 =>
    exact ⟨seg, src2, k, src3, rfl, fun _ _ => by simp only [vectorLength, Nat.reduceDiv]; rfl⟩
  | _ => cases h

/-! ## What a completed instruction and a completed step have done -/

theorem hasAvx512f_of_evexCheck {s : State} {n : Nat} {k : WriteMask} (h : s.evexCheck n k = none) :
    s.params.hasAvx512f = true := by
  cases hf : s.params.hasAvx512f with
  | true => rfl
  | false => simp [State.evexCheck, hf] at h

/-- A form that completes leaves `State.completed`, with one result for each of its elements; an EVEX form completes
only with AVX512F (60_exceptions.md R166). -/
theorem execWith_eq_next {c : Configuration} {i : Instr} {s t : State} (h : execWith c i s = .next t) :
    (usesEvex i = true → s.params.hasAvx512f = true) ∧
      ∃ suppress rs, rs.length = vectorLength i / 64 ∧ t = s.completed (destOf i) suppress rs i.length := by
  cases hu : usesEvex i with
  | false =>
    obtain ⟨-, seg, dest, src2, src3, hdest, hlen, hexec⟩ := execWith_eq_vexFnmsub hu
    obtain ⟨-, vc, -, rs, hrs, -, ht⟩ := vexFnmsub_eq_next (hexec c s ▸ h)
    exact ⟨by simp, false, rs, by simp [hrs], by rw [hdest, hlen, ht]⟩
  | true =>
    obtain ⟨seg, src2, k, src3, hlen, hexec⟩ := execWith_eq_evexFnmsub hu
    obtain ⟨hcheck, vc, -, rs, hrs, -, ht⟩ := evexFnmsub_eq_next (hexec c s ▸ h)
    exact ⟨fun _ => hasAvx512f_of_evexCheck hcheck, _, rs, by simp [hrs], by rw [hlen, ht]⟩

theorem retire_eq_next {s t u : State} (h : s.retire t = .next u) : s.enabled.nodebug = true ∧ u = t := by
  unfold State.retire at h
  split at h
  · cases h; exact ⟨‹_›, rfl⟩
  · cases h

/-- A step that answers a next state has fetched an instruction and completed it, no debug facility being active. -/
theorem step_eq_next {s t : State} (h : step s = .next t) :
    s.enabled.nodebug = true ∧ ∃ i, s.fetchInstr = .next i ∧ exec i s = .next t := by
  obtain ⟨i, hfetch, hrest⟩ := andThen_eq_next h
  obtain ⟨u, hexec, hretire⟩ := andThen_eq_next hrest
  obtain ⟨hdebug, rfl⟩ := retire_eq_next hretire
  exact ⟨hdebug, i, hfetch, hexec⟩

/-! ## The parts of the invariant -/

/-- Setting status flags leaves MXCSR bits 31:6 alone (60_exceptions.md R164). -/
theorem mxcsrOr_extractLsb' (m : BitVec 32) (f : BitVec 6) (lo w : Nat) (h : 6 ≤ lo) :
    (mxcsrOr m f).extractLsb' lo w = m.extractLsb' lo w := by
  apply BitVec.eq_of_getLsbD_eq
  intro j hj
  have hf : f.getLsbD (lo + j) = false := BitVec.getLsbD_of_ge _ _ (by omega)
  simp [mxcsrOr, BitVec.getLsbD_extractLsb', hf]

/-- `pc` stays a linear address of the mode (10_state.md R29; 20_memory.md R48). -/
theorem wrapAddress_lt (m : CpuMode) (a : Word64) : (wrapAddress m a).toNat < addressSpace m := by
  cases m with
  | long64 => exact a.isLt
  | realAddress | virtual8086 | prot32 => simp [wrapAddress, addressSpace]; omega

theorem vexReg_toNat_lt (r : BitVec 4) : (vexReg r).toNat < 16 := by
  rw [vexReg, BitVec.toNat_setWidth]
  omega

/-- A VEX form names no register above 15 (10_state.md R21). -/
theorem destOf_lt_of_vex {i : Instr} (h : usesEvex i = false) : (destOf i).toNat < 16 := by
  obtain ⟨-, -, dest, -, -, hdest, -⟩ := execWith_eq_vexFnmsub h
  exact hdest ▸ vexReg_toNat_lt dest

section Completed

variable {s : State} {dest : BitVec 5} {suppress : Bool} {rs : List LaneResult} {len : Nat}

theorem completed_mxcsrReservedZero (h : s.MxcsrReservedZero) :
    (s.completed dest suppress rs len).MxcsrReservedZero := by
  cases suppress with
  | true => exact h
  | false => exact (mxcsrOr_extractLsb' s.mxcsr (laneFlags rs) 16 16 (by omega)).trans h

/-- Without AVX512F only a form of at most four elements with a destination below 16 completes, and such a write is within
`MAX_VL` (10_state.md R20, R21). -/
theorem completed_withinMaxVl (h : s.WithinMaxVl)
    (hw : s.params.hasAvx512f = true ∨ rs.length ≤ 4 ∧ dest.toNat < 16) :
    (s.completed dest suppress rs len).WithinMaxVl := by
  obtain hf | ⟨hlen, hdest⟩ := hw
  · exact .inl hf
  · refine h.imp_right fun hv r => ?_
    by_cases hr : dest.toNat = r.val
    · have upper := joinLanes_upper (rs.map LaneResult.value) 256 256 (by simp; omega)
      exact ⟨by simpa [hr] using upper, fun _ => by omega⟩
    · simpa [Vector.getElem_set_ne, hr] using hv r

theorem completed_pcInRange : (s.completed dest suppress rs len).PcInRange := wrapAddress_lt _ _

theorem completed_inv (h : s.Inv) (hw : s.params.hasAvx512f = true ∨ rs.length ≤ 4 ∧ dest.toNat < 16) :
    (s.completed dest suppress rs len).Inv := by
  obtain ⟨hflags, hmxcsr, hv, -, hmem⟩ := h
  exact ⟨hflags, completed_mxcsrReservedZero hmxcsr, completed_withinMaxVl hv hw, completed_pcInRange, hmem⟩

end Completed

/-- Every instruction keeps the invariant, in every instantiation of the configuration. -/
theorem execWith_inv {c : Configuration} {i : Instr} {s t : State} (hs : s.Inv) (h : execWith c i s = .next t) :
    t.Inv := by
  obtain ⟨havx, suppress, rs, hrs, rfl⟩ := execWith_eq_next h
  refine completed_inv hs ?_
  cases hu : usesEvex i with
  | true => exact .inl (havx hu)
  | false =>
    obtain ⟨hlen, -⟩ := execWith_eq_vexFnmsub hu
    exact .inr ⟨by omega, destOf_lt_of_vex hu⟩

/-- Settles O15: an instruction that a step completes leaves `State.completed`, which is within the invariant. -/
theorem stepKeepsInv : Obligations.StepKeepsInv := by
  intro s t hs h
  obtain ⟨-, i, -, hexec⟩ := step_eq_next h
  exact execWith_inv hs (exec_eq_execWith i s ▸ hexec)

end Sys2Proof.Machine
end

section
/-! The decoder answers well-formed instructions only: what the bytes of an answered instruction satisfy is said once for
each part of the decoder (displacement, SIB, ModRM, VEX, EVEX, lead bytes), and the well-formedness of the answer read off
(30_encoding.md R76, R81, R83). -/

namespace Sys2Proof

/-! ## Well-formedness of the rows -/

@[simp] theorem wf_vexInstr (m : CpuMode) (o : FmaOrder) (l : Bool) (seg : Option Seg) (dest src2 : BitVec 4)
    (src3 : VexOperand) : (vexInstr o l seg dest src2 src3).wf m = vexWf m dest src2 src3 := by
  cases o <;> cases l <;> rfl

@[simp] theorem wf_evexInstr (m : CpuMode) (o : FmaOrder) (l : Bool) (seg : Option Seg) (dest src2 : BitVec 5)
    (k : WriteMask) (src3 : EvexOperand) :
    (evexInstr o l seg dest src2 k src3).wf m = evexWf m dest src2 k (src3.wfIn m) := by
  cases o <;> cases l <;> rfl

@[simp] theorem wf_evexInstr512 (m : CpuMode) (o : FmaOrder) (seg : Option Seg) (dest src2 : BitVec 5)
    (k : WriteMask) (src3 : EvexOperandEr) :
    (evexInstr512 o seg dest src2 k src3).wf m = evexWf m dest src2 k (src3.wfIn m) := by
  cases o <;> rfl

/-- The row of an EVEX encoding is well formed if its register numbers, mask and address form are. -/
theorem wf_evexRow {m : CpuMode} {o : FmaOrder} {seg : Option Seg} {dest src2 : BitVec 5} {k : WriteMask}
    {ll : BitVec 2} {b : Bool} {xb : BitVec 2} {operand : RegOrMem} (hdest : evexRegIn m dest = true)
    (hsrc2 : evexRegIn m src2 = true) (hk : k.wf = true) (hreg : ∀ rm : BitVec 3, evexRegIn m (xb ++ rm) = true)
    (hmem : ∀ a, operand = .mem a → a.wfIn m = true) :
    (evexRow o seg dest src2 k ll b xb operand).wf m = true := by
  cases operand with
  | reg rm =>
    have h3 := hreg rm
    cases b with
    | true => simp [evexRow, evexWf, EvexOperandEr.wfIn, hdest, hsrc2, hk, h3]
    | false =>
      by_cases hll : ll = 0b10#2 <;>
        simp [evexRow, hll, evexWf, EvexOperand.wfIn, EvexOperandEr.wfIn, hdest, hsrc2, hk, h3]
  | mem a =>
    have h3 := hmem a rfl
    cases b <;> by_cases hll : ll = 0b10#2 <;>
      simp [evexRow, hll, evexWf, EvexOperand.wfIn, EvexOperandEr.wfIn, hdest, hsrc2, hk, h3]

/-! ## Register numbers -/

@[simp] theorem extend_setWidth (e : Bool) (r : BitVec 3) : (extend e r).setWidth 3 = r := by
  rw [extend, BitVec.setWidth_append_eq_right]

@[simp] theorem extend_msb (e : Bool) (r : BitVec 3) : (extend e r).msb = e := by
  revert e r; decide

theorem vexRegIn_of {m : CpuMode} {r : BitVec 4} (h : m ≠ .long64 → r.msb = false) : vexRegIn m r = true := by
  cases m <;> simp_all [vexRegIn]

theorem evexRegIn_of {m : CpuMode} {r : BitVec 5} (h : m ≠ .long64 → r.toNat < 8) : evexRegIn m r = true := by
  cases m <;> simp_all [evexRegIn]

theorem wfIn_of {m : CpuMode} {a : Addr} (hwf : a.wf = true) (h : m ≠ .long64 → a.lowRegs = true) :
    a.wfIn m = true := by
  cases m <;> simp_all [Addr.wfIn]

/-! ## Displacement, SIB, ModRM -/

theorem eq_00_of_ne {mod : BitVec 2} : mod ≠ 0b01#2 → mod ≠ 0b10#2 → mod ≠ 0b11#2 → mod = 0b00#2 := by
  revert mod; decide

/-- Only `mod = 00` has no displacement, and base 101 has none there (R76). -/
theorem decodeDisp_allowedWith {mod : BitVec 2} {t : List Byte} {d : Disp} {base : BitVec 4}
    (h : decodeDisp mod t = some d) (hmod : mod ≠ 0b11#2) (hbase : ¬(mod = 0b00#2 ∧ base.setWidth 3 = 0b101#3)) :
    d.allowedWith base = true := by
  cases d with
  | d8 | d32 => rfl
  | none =>
    unfold decodeDisp at h
    split at h
    · split at h <;> cases h
    rename_i h01
    split at h
    · split at h <;> cases h
    rename_i h10
    have hmod00 := eq_00_of_ne h01 h10 hmod
    simpa [Disp.allowedWith] using fun hb => hbase ⟨hmod00, hb⟩

/-- A SIB byte names a form of the table, and no register above 7 without extension bits (R76). -/
theorem decodeSib_wf {mod : BitVec 2} {x b : Bool} {t : List Byte} {a : Addr} (h : decodeSib mod x b t = some a)
    (hmod : mod ≠ 0b11#2) : a.wf = true ∧ (x = false → b = false → a.lowRegs = true) := by
  cases t with
  | nil => cases h
  | cons sib t =>
    simp only [decodeSib] at h
    split at h
    · obtain ⟨d, -, rfl⟩ := Option.map_eq_some_iff.mp h
      exact ⟨rfl, fun hx _ => by simp [Addr.lowRegs, hx]⟩
    · obtain ⟨d, hd, rfl⟩ := Option.map_eq_some_iff.mp h
      exact ⟨decodeDisp_allowedWith hd hmod (by rwa [extend_setWidth]), fun hx hb => by simp [Addr.lowRegs, hx, hb]⟩

/-- ModRM names a form of the table, and no register above 7 without extension bits (R76). -/
theorem decodeModRm_wf {x b : Bool} {modrm : Byte} {t : List Byte} {a : Addr}
    (h : decodeModRm x b modrm t = some (.mem a)) : a.wf = true ∧ (x = false → b = false → a.lowRegs = true) := by
  unfold decodeModRm at h
  split at h
  · cases h
  · rename_i hmod
    split at h
    · obtain ⟨a', ha, heq⟩ := Option.map_eq_some_iff.mp h
      cases heq
      exact decodeSib_wf ha hmod
    · rename_i hrm
      split at h
      · obtain ⟨d, -, heq⟩ := Option.map_eq_some_iff.mp h
        cases heq
        exact ⟨rfl, fun _ _ => rfl⟩
      · obtain ⟨d, hd, heq⟩ := Option.map_eq_some_iff.mp h
        cases heq
        have hdisp := decodeDisp_allowedWith (base := extend b (modrm.field 0 3)) hd hmod (by rwa [extend_setWidth])
        exact ⟨by simp [Addr.wf, hrm, hdisp], fun _ hb => by simp [Addr.lowRegs, hb]⟩

/-! ## Extension bits outside `Long64` -/

theorem eq_prot32_or_isReal {m : CpuMode} (h : m ≠ .long64) : m = .prot32 ∨ m.isReal = true := by
  cases m <;> simp_all [CpuMode.isReal]

/-- The two bits that C4 and 62 need outside `Long64` (R83) are the inverted extension bits R and X. -/
theorem inverted_of_field_eq {b : Byte} (h : b.field 6 2 = 0b11#2) : b.inverted 7 = false ∧ b.inverted 6 = false := by
  have h6 : (b.field 6 2).getLsbD 0 = true := h ▸ rfl
  have h7 : (b.field 6 2).getLsbD 1 = true := h ▸ rfl
  exact ⟨by simpa [Byte.field, Byte.inverted] using h7, by simpa [Byte.field, Byte.inverted] using h6⟩

theorem not_field_msb (b : Byte) : (~~~(b.field 3 4)).msb = b.inverted 6 := by
  simp [Byte.field, Byte.inverted, BitVec.msb_eq_getLsbD_last]

/-! ## The rows -/

/-- Operand 3 of a VEX form that ModRM names; `b` is the true extension bit B (R68, R74). -/
def vexOperandOf (b : Bool) : RegOrMem → VexOperand
  | .reg rm => .reg (extend b rm)
  | .mem a => .mem a

/-- What the bytes after C4 satisfy when they are an instruction (R62, R65, R83). -/
theorem decodeVex_eq_instr {m : CpuMode} {seg : Option Seg} {bs : List Byte} {i : Instr}
    (h : decodeVex m seg bs = .instr i) :
    ∃ b1 b2 op modrm t o operand, bs = b1 :: b2 :: op :: modrm :: t ∧ orderOf op = some o ∧
      decodeModRm (b1.inverted 6) (b1.inverted 5) modrm t = some operand ∧
      (m ≠ .long64 → b1.field 6 2 = 0b11#2 ∧ b1.inverted 5 = false ∧ b2.inverted 6 = false) ∧
      i = vexInstr o (b2.getLsbD 2) seg (extend (b1.inverted 7) (modrm.field 3 3)) (~~~(b2.field 3 4))
        (vexOperandOf (b1.inverted 5) operand) := by
  unfold decodeVex at h
  split at h
  case h_2 => cases h
  case h_1 b1 b2 op modrm t =>
    split at h
    · cases h
    rename_i hles
    split at h
    · cases h
    split at h
    · cases h
    rename_i o ho
    split at h
    · cases h
    rename_i hprot
    split at h
    · cases h
    rename_i operand hoperand
    split at h
    · cases h
    rename_i hreal
    refine ⟨b1, b2, op, modrm, t, o, operand, rfl, ho, hoperand, fun hm => ?_, ?_⟩
    · have hext : ¬(b1.inverted 5 = true ∨ b2.inverted 6 = true) :=
        (eq_prot32_or_isReal hm).elim (fun hp he => hprot ⟨hp, he⟩) (fun hr he => hreal ⟨hr, he⟩)
      simpa [hm] using And.intro hles hext
    · cases operand <;> cases h <;> rfl

theorem decodeVex_wf {m : CpuMode} {seg : Option Seg} {bs : List Byte} {i : Instr}
    (h : decodeVex m seg bs = .instr i) : i.wf m = true := by
  obtain ⟨b1, b2, op, modrm, t, o, operand, -, -, hoperand, hlow, rfl⟩ := decodeVex_eq_instr h
  have hdest : vexRegIn m (extend (b1.inverted 7) (modrm.field 3 3)) = true :=
    vexRegIn_of fun hm => by rw [extend_msb, (inverted_of_field_eq (hlow hm).1).1]
  have hsrc2 : vexRegIn m (~~~(b2.field 3 4)) = true :=
    vexRegIn_of fun hm => by rw [not_field_msb, (hlow hm).2.2]
  have hsrc3 : (vexOperandOf (b1.inverted 5) operand).wfIn m = true := by
    cases operand with
    | reg rm => exact vexRegIn_of fun hm => by rw [extend_msb, (hlow hm).2.1]
    | mem a =>
      obtain ⟨hwf, hregs⟩ := decodeModRm_wf hoperand
      exact wfIn_of hwf fun hm => hregs (inverted_of_field_eq (hlow hm).1).2 (hlow hm).2.1
  simp [vexWf, hdest, hsrc2, hsrc3]

/-- What the bytes after 62 satisfy when they are an instruction (R64, R66, R81, R83). -/
theorem decodeEvex_eq_instr {m : CpuMode} {seg : Option Seg} {bs : List Byte} {i : Instr}
    (h : decodeEvex m seg bs = .instr i) :
    ∃ p0 p1 p2 op modrm t o operand, bs = p0 :: p1 :: p2 :: op :: modrm :: t ∧ orderOf op = some o ∧
      decodeModRm (p0.inverted 6) (p0.inverted 5) modrm t = some operand ∧
      evexIllegal p0 p1 p2 (modrm.field 6 2 == 0b11#2) = none ∧
      (m ≠ .long64 → p0.field 6 2 = 0b11#2 ∧ p0.inverted 5 = false ∧ p0.inverted 4 = false ∧ p1.inverted 6 = false ∧
        p2.inverted 3 = false) ∧
      i = evexRow o seg (BitVec.ofBool (p0.inverted 4) ++ BitVec.ofBool (p0.inverted 7) ++ modrm.field 3 3)
        (BitVec.ofBool (p2.inverted 3) ++ ~~~(p1.field 3 4)) { aaa := p2.field 0 3, z := p2.getLsbD 7 }
        (p2.field 5 2) (p2.getLsbD 4) (BitVec.ofBool (p0.inverted 6) ++ BitVec.ofBool (p0.inverted 5)) operand := by
  unfold decodeEvex at h
  split at h
  case h_2 => cases h
  case h_1 p0 p1 p2 op modrm t =>
    split at h
    · cases h
    rename_i hles
    split at h
    · cases h
    split at h
    · cases h
    rename_i o ho
    split at h
    · cases h
    rename_i hprot
    split at h
    · cases h
    rename_i operand hoperand
    split at h
    · cases h
    rename_i hlegal
    split at h
    · cases h
    rename_i hreal
    cases h
    refine ⟨p0, p1, p2, op, modrm, t, o, operand, rfl, ho, hoperand, hlegal, fun hm => ?_, rfl⟩
    have hext : ¬(p0.inverted 5 = true ∨ p0.inverted 4 = true ∨ p1.inverted 6 = true ∨ p2.inverted 3 = true) :=
      (eq_prot32_or_isReal hm).elim (fun hp he => hprot ⟨hp, he⟩) (fun hr he => hreal ⟨hr, he⟩)
    simpa [hm] using And.intro hles hext

/-- R81 line 7. -/
theorem mask_wf_of_legal {p0 p1 p2 : Byte} {r : Bool} (h : evexIllegal p0 p1 p2 r = none) :
    WriteMask.wf { aaa := p2.field 0 3, z := p2.getLsbD 7 } = true := by
  unfold evexIllegal at h
  split at h
  · cases h
  split at h
  · cases h
  split at h
  · cases h
  split at h
  · cases h
  rename_i hz
  simpa [WriteMask.wf, imp_iff_not_or] using hz

/-- A register number without extension bits is below 8 (10_state.md R21). -/
theorem evexReg_toNat_lt (r : BitVec 3) :
    (BitVec.ofBool false ++ BitVec.ofBool false ++ r : BitVec 5).toNat < 8 := by
  revert r; decide

theorem evexSrc2_toNat_lt {r : BitVec 4} (h : r.msb = false) : (BitVec.ofBool false ++ r : BitVec 5).toNat < 8 := by
  revert r; decide

theorem decodeEvex_wf {m : CpuMode} {seg : Option Seg} {bs : List Byte} {i : Instr}
    (h : decodeEvex m seg bs = .instr i) : i.wf m = true := by
  obtain ⟨p0, p1, p2, op, modrm, t, o, operand, -, -, hoperand, hlegal, hlow, rfl⟩ := decodeEvex_eq_instr h
  refine wf_evexRow (evexRegIn_of fun hm => ?_) (evexRegIn_of fun hm => ?_) (mask_wf_of_legal hlegal)
    (fun rm => evexRegIn_of fun hm => ?_) (fun a ha => ?_)
  case refine_4 =>
    obtain ⟨hwf, hregs⟩ := decodeModRm_wf (ha ▸ hoperand)
    exact wfIn_of hwf fun hm => hregs (inverted_of_field_eq (hlow hm).1).2 (hlow hm).2.1
  all_goals
    obtain ⟨hfield, h5, h4, hp1, hp2⟩ := hlow hm
    obtain ⟨h7, h6⟩ := inverted_of_field_eq hfield
  case refine_1 => rw [h4, h7]; exact evexReg_toNat_lt _
  case refine_2 => rw [hp2]; exact evexSrc2_toNat_lt ((not_field_msb p1).trans hp1)
  case refine_3 => rw [h6, h5]; exact evexReg_toNat_lt rm

/-! ## The whole instruction -/

/-- An answered instruction is that of the bytes after the lead bytes, which neither R83 nor R81 line 1 stops. -/
theorem decode_eq_instr {m : CpuMode} {bs : List Byte} {i : Instr} (h : decode m bs = .instr i) :
    leadOutOfScope (splitLead m bs).1 = none ∧ leadIllegal (splitLead m bs).1 = false ∧
      decodeBody m (leadSegment (splitLead m bs).1) (splitLead m bs).2 = .instr i := by
  unfold decode at h
  split at h
  · cases h
  rename_i hscope
  split at h
  case h_1 | h_2 | h_3 => cases h
  case h_4 hbody =>
    split at h
    · cases h
    rename_i hlegal
    cases h
    exact ⟨hscope, Bool.eq_false_of_not_eq_true hlegal, hbody⟩

theorem decodeBody_wf {m : CpuMode} {seg : Option Seg} {bs : List Byte} {i : Instr}
    (h : decodeBody m seg bs = .instr i) : i.wf m = true := by
  cases bs with
  | nil => cases h
  | cons b t =>
    simp only [decodeBody] at h
    split at h
    · exact decodeVex_wf h
    split at h
    · exact decodeEvex_wf h
    · cases h

/-- Settles O7, by what each part of the decoder answers. -/
theorem decodeWellFormed : Obligations.DecodeWellFormed := by
  intro m bs i h
  obtain ⟨-, -, hbody⟩ := decode_eq_instr h
  exact decodeBody_wf hbody

end Sys2Proof
end

section
/-! What a completed form and a completed step leave (10_state.md R22, R29; 20_memory.md R40; 60_exceptions.md R164), read
off `State.completed` and the instruction that was fetched. -/

namespace Sys2Proof.Machine

open Sys2Proof

/-! ## Reset -/

/-- Settles O1, field by field. -/
theorem resetValues : Obligations.ResetValues := by
  refine ⟨fun r => ?_, fun a => ?_, fun g _ => ?_, rfl, rfl, rfl, by decide, by decide, rfl, by decide⟩
  · simp [State.readV, State.reset]
  · simp [State.readK, State.reset]
  · simp [State.readX, State.reset]

/-- Settles O3, clause by clause of the invariant. -/
theorem resetInv : Obligations.ResetInv := by
  have hpc : State.reset.PcInRange := by decide
  exact ⟨fun _ => rfl, rfl, .inl rfl, hpc, rfl⟩

/-! ## Fetching -/

theorem pcNat_of_inRange {s : State} (h : s.PcInRange) : s.pcNat = s.pc.toNat := Nat.mod_eq_of_lt h

theorem fetched_eq_next {d : Decoded} {i : Instr} : fetched d = .next i ↔ d = .instr i := by
  cases d <;> simp [fetched, raise]

/-- An instruction is fetched exactly where the text, which ends within the address space, has bytes from `pc` on that
decode to it (10_state.md R30, R35). -/
theorem fetchInstr_eq_next {s : State} {i : Instr} (h : s.PcInRange) :
    s.fetchInstr = .next i ↔
      s.text.base.toNat + s.text.bytes.length ≤ addressSpace s.params.mode ∧ s.text.base.toNat ≤ s.pc.toNat ∧
        decode s.params.mode (s.text.bytes.drop (s.pc.toNat - s.text.base.toNat)) = .instr i := by
  unfold State.fetchInstr State.fetchBytes
  rw [pcNat_of_inRange h]
  constructor
  · intro hf
    obtain ⟨bs, hbytes, hdec⟩ := andThen_eq_next hf
    split at hbytes
    · cases hbytes
    split at hbytes
    · cases hbytes
      exact ⟨by omega, by omega, fetched_eq_next.mp hdec⟩
    split at hbytes <;> cases hbytes
  · rintro ⟨hend, hbase, hdec⟩
    have hlt : s.pc.toNat < s.text.base.toNat + s.text.bytes.length := by
      by_contra hge
      rw [List.drop_of_length_le (by omega)] at hdec
      cases hdec
    rw [if_neg (by omega), if_pos ⟨hbase, hlt⟩]
    exact fetched_eq_next.mpr hdec

/-! ## A step -/

theorem step_of_fetchInstr {s : State} {i : Instr} (h : s.fetchInstr = .next i) :
    step s = andThen (exec i s) s.retire := by
  simp [step, h]

theorem retire_eq (s t : State) : s.retire t =
    if s.sys.rflags.getLsbD 8 = false ∧ s.sys.breakpoints = false then .next t else .refused .debugFacility := by
  simp [State.retire, State.enabled]

/-- Settles O13: the bytes are fetched, and what the step does is `exec` and then `State.retire`. -/
theorem stepRunsDecoded : Obligations.StepRunsDecoded := by
  intro s i hpc hend hbase hdec
  have hstep := step_of_fetchInstr ((fetchInstr_eq_next hpc).mpr ⟨hend, hbase, hdec⟩)
  refine ⟨decodeWellFormed _ _ _ hdec, fun f hf => ?_, fun r hr => ?_, fun t ht => ?_⟩
  · simp [hstep, hf]
  · simp [hstep, hr]
  · rw [hstep, ht, andThen_next, retire_eq]
    split <;> rfl

/-- `pc + len` wraps at the size of the address space (10_state.md R29). -/
theorem nextPc_toNat (s : State) (len : Nat) :
    (s.nextPc len).toNat = (s.pc.toNat + len) % addressSpace s.params.mode := by
  unfold State.nextPc
  cases s.params.mode <;> simp [wrapAddress, addressSpace] <;> omega

/-- Settles O19: the step fetched an instruction and left `State.completed`. -/
theorem pcAdvancesAlongRun : Obligations.PcAdvancesAlongRun := by
  intro s t hpc h
  obtain ⟨-, i, hfetch, hexec⟩ := step_eq_next h
  obtain ⟨-, hbase, hdec⟩ := (fetchInstr_eq_next hpc).mp hfetch
  obtain ⟨-, suppress, rs, -, rfl⟩ := execWith_eq_next (exec_eq_execWith i s ▸ hexec)
  exact ⟨i, hbase, hdec, nextPc_toNat s i.length, fun q hq => completed_readV_other _ _ _ _ _ hq⟩

/-! ## The frame of the forms -/

section Completed

variable {s : State} {dest : BitVec 5} {suppress : Bool} {rs : List LaneResult} {len : Nat}

/-- Bits above the elements are zero (41_vfnmsub_vex.md R138, 42_vfnmsub_evex.md R155). -/
theorem completed_readV_dest_upper {b : Nat} (h : 64 * rs.length ≤ b) :
    ((s.completed dest suppress rs len).readV dest).getLsbD b = false := by
  have hbit := congrArg (BitVec.getLsbD · 0) (joinLanes_upper (rs.map LaneResult.value) b 1 (by simpa using h))
  simpa using hbit

/-- Completion sets status flags and leaves the rest of MXCSR alone (60_exceptions.md R164). -/
theorem completed_mxcsr_upper : (s.completed dest suppress rs len).mxcsr.extractLsb' 6 26 = s.mxcsr.extractLsb' 6 26 := by
  cases suppress with
  | true => rfl
  | false => exact mxcsrOr_extractLsb' _ _ 6 26 (by omega)

theorem completed_mxcsr_sticky {b : Nat} (h : s.mxcsr.getLsbD b = true) :
    (s.completed dest suppress rs len).mxcsr.getLsbD b = true := by
  cases suppress <;> simp [mxcsrOr, h]

end Completed

/-- Settles O20: every form that completes leaves `State.completed`. -/
theorem execFrame : Obligations.ExecFrame := by
  intro i s t h
  obtain ⟨-, suppress, rs, hrs, rfl⟩ := execWith_eq_next (exec_eq_execWith i s ▸ h)
  exact ⟨fun q hq => completed_readV_other _ _ _ _ _ hq, fun b hb => completed_readV_dest_upper (by omega),
    rfl, rfl, rfl, rfl, rfl, fun _ => rfl, completed_mxcsr_upper, fun _ _ hb => completed_mxcsr_sticky hb⟩

end Sys2Proof.Machine
end

section
/-! Two runs of one form that read the same end alike. The templates read of a state the fields of `SameControl`, the
first elements of the source registers, the first bits of the mask, and operand 3; so that the states agree on these is all
that a statement about unread state has to show (10_state.md R22, R24, R31). -/

namespace Sys2Proof.Machine

open Sys2Proof

/-! ## Ending alike -/

/-- The same fault, the same refusal, or completion of both with results that `R` relates. -/
inductive EndAlike {α : Type} (R : α → α → Prop) :
    Host.Outcome α Fault Refusal → Host.Outcome α Fault Refusal → Prop where
  | next {a b : α} (h : R a b) : EndAlike R (.next a) (.next b)
  | fault (f : Fault) : EndAlike R (.fault f) (.fault f)
  | refused (r : Refusal) : EndAlike R (.refused r) (.refused r)

theorem EndAlike.of_eq {α : Type} {R : α → α → Prop} (hR : ∀ a, R a a) {o o' : Host.Outcome α Fault Refusal}
    (h : o' = o) : EndAlike R o o' := by
  subst h
  cases o' with
  | next a => exact .next (hR a)
  | fault f => exact .fault f
  | refused r => exact .refused r

theorem EndAlike.andThen {α β : Type} {R : α → α → Prop} {S : β → β → Prop} {o o' : Host.Outcome α Fault Refusal}
    {f f' : α → Host.Outcome β Fault Refusal} (h : EndAlike R o o') (hf : ∀ a b, R a b → EndAlike S (f a) (f' b)) :
    EndAlike S (andThen o f) (andThen o' f') := by
  cases h with
  | next h => exact hf _ _ h
  | fault f => exact .fault f
  | refused r => exact .refused r

/-! ## What the templates read besides the operands -/

/-- `s'` has the control state of `s`: the checks, the floating-point controls, `pc` and the draws. -/
structure State.SameControl (s s' : State) : Prop where
  mxcsr : s'.mxcsr = s.mxcsr
  pc : s'.pc = s.pc
  sys : s'.sys = s.sys
  draws : s'.draws = s.draws
  mode : s'.params.mode = s.params.mode
  hasFma : s'.params.hasFma = s.params.hasFma
  hasAvx512f : s'.params.hasAvx512f = s.params.hasAvx512f
  hasAvx512vl : s'.params.hasAvx512vl = s.params.hasAvx512vl

/-- The first `n` elements are the same. -/
def SameLanes (n : Nat) (v v' : Vec) : Prop := ∀ j < n, lane v' j = lane v j

/-- `s` and `s'` were completed with the same results to `t` and `t'`. -/
def BothCompleted (s s' : State) (dest : BitVec 5) (t t' : State) : Prop :=
  ∃ suppress rs len, t = s.completed dest suppress rs len ∧ t' = s'.completed dest suppress rs len

section Templates

variable {s s' : State} (hc : s.SameControl s')
include hc

theorem enabled_congr : s'.enabled = s.enabled := by
  simp [State.enabled, State.enabledAvx, hc.mode, hc.sys]

theorem vexCheck_congr : s'.vexCheck = s.vexCheck := by
  simp [State.vexCheck, hc.hasFma, enabled_congr hc]

theorem evexCheck_congr (n : Nat) (k : WriteMask) : s'.evexCheck n k = s.evexCheck n k := by
  simp [State.evexCheck, hc.hasAvx512f, hc.hasAvx512vl, enabled_congr hc]

theorem nextPc_congr (len : Nat) : s'.nextPc len = s.nextPc len := by
  simp [State.nextPc, hc.mode, hc.pc]

theorem simdFault_congr (masks detected : BitVec 6) : s'.simdFault masks detected = s.simdFault masks detected := by
  simp [State.simdFault, hc.mxcsr, hc.draws, enabled_congr hc]

theorem commit_endAlike (dest : BitVec 5) (masks : BitVec 6) (suppress : Bool) (rs : List LaneResult) (len : Nat) :
    EndAlike (BothCompleted s s' dest) (s.commit dest masks suppress rs len) (s'.commit dest masks suppress rs len) := by
  unfold State.commit
  rw [simdFault_congr hc]
  split
  · exact .fault _
  · exact .next ⟨suppress, rs, len, rfl, rfl⟩

/-- An element is computed from the same elements of the operands. -/
theorem computeLane_congr (c : Configuration) (o : FmaOrder) (rm : Rounding) (masks : BitVec 6) {act act' : Nat → Bool}
    (zeroing : Bool) {va va' vb vb' vc vc' : Vec} {j : Nat} (hact : act' j = act j) (ha : lane va' j = lane va j)
    (hb : lane vb' j = lane vb j) (hcj : lane vc' j = lane vc j) :
    s'.computeLane c o rm masks act' zeroing va' vb' vc' j = s.computeLane c o rm masks act zeroing va vb vc j := by
  simp [State.computeLane, hact, ha, hb, hcj, hc.mxcsr, hc.draws]

theorem vexFnmsub_endAlike {c : Configuration} {o : FmaOrder} {n : Nat} {seg : Option Seg} {dest src2 : BitVec 4}
    {src3 : VexOperand} (hv : ∀ r, SameLanes n (s.readV r) (s'.readV r))
    (h3 : EndAlike (SameLanes n) (s.vexOperand3 c seg n (vexLength seg src3.length) src3)
      (s'.vexOperand3 c seg n (vexLength seg src3.length) src3)) :
    EndAlike (BothCompleted s s' (vexReg dest)) (vexFnmsub c o n seg dest src2 src3 s)
      (vexFnmsub c o n seg dest src2 src3 s') := by
  unfold vexFnmsub
  rw [vexCheck_congr hc]
  split
  · exact .fault _
  · refine h3.andThen fun vc vc' hvc => ?_
    rw [hc.mxcsr, List.map_congr_left fun j hj => computeLane_congr hc c o _ _ false rfl
      (hv _ j (List.mem_range.mp hj)) (hv _ j (List.mem_range.mp hj)) (hvc j (List.mem_range.mp hj))]
    exact commit_endAlike hc ..

theorem evexFnmsub_endAlike {c : Configuration} {o : FmaOrder} {n : Nat} {seg : Option Seg} {dest src2 : BitVec 5}
    {k : WriteMask} {src3 : EvexOperandEr} (hv : ∀ r, SameLanes n (s.readV r) (s'.readV r))
    (hk : ∀ j < n, s'.laneActive k j = s.laneActive k j)
    (h3 : EndAlike (SameLanes n) (s.evexOperand3 c seg n (evexLength seg src3.length) k src3)
      (s'.evexOperand3 c seg n (evexLength seg src3.length) k src3)) :
    EndAlike (BothCompleted s s' dest) (evexFnmsub c o n seg dest src2 k src3 s)
      (evexFnmsub c o n seg dest src2 k src3 s') := by
  unfold evexFnmsub State.evexRounding State.evexMasks
  rw [evexCheck_congr hc]
  split
  · exact .fault _
  · refine h3.andThen fun vc vc' hvc => ?_
    rw [hc.mxcsr, List.map_congr_left fun j hj => computeLane_congr hc c o _ _ k.z (hk j (List.mem_range.mp hj))
      (hv _ j (List.mem_range.mp hj)) (hv _ j (List.mem_range.mp hj)) (hvc j (List.mem_range.mp hj))]
    exact commit_endAlike hc ..

end Templates

/-! ## Operand 3 -/

theorem any_range_congr {n : Nat} {p q : Nat → Bool} (h : ∀ j < n, p j = q j) :
    (List.range n).any p = (List.range n).any q := by
  rw [Bool.eq_iff_iff, List.any_eq_true, List.any_eq_true]
  exact exists_congr fun j => and_congr_right fun hj => by rw [h j (List.mem_range.mp hj)]

/-- A full-width read looks at the first `n` bits of the mask only (20_memory.md R47). -/
theorem loadFull_congr (s : State) (ea : Word64) {n : Nat} {act act' : Nat → Bool} (h : ∀ j < n, act' j = act j) :
    s.loadFull ea n act' = s.loadFull ea n act := by
  have hany : ((List.range n).any fun j => act' j && !s.elemReadable (ea.toNat + 8 * j)) =
      (List.range n).any fun j => act j && !s.elemReadable (ea.toNat + 8 * j) :=
    any_range_congr fun j hj => by rw [h j hj]
  simp only [State.loadFull, hany]

theorem loadBroadcast_congr (s : State) (ea : Word64) {n : Nat} {act act' : Nat → Bool} (h : ∀ j < n, act' j = act j) :
    s.loadBroadcast ea n act' = s.loadBroadcast ea n act := by
  simp only [State.loadBroadcast, any_range_congr h]

/-- The states differ in vector and opmask registers only, which addresses and reads of memory ignore. -/
def State.SameAddressing (s s' : State) : Prop := ∃ v k, s' = { s with v := v, k := k }

section Operand3

variable {s s' : State} {n len : Nat} {seg : Option Seg} (hv : ∀ r, SameLanes n (s.readV r) (s'.readV r))
include hv

theorem vexOperand3_endAlike {src3 : VexOperand} (h3 : vexMemOperand n seg src3 = none ∨ s.SameAddressing s') :
    EndAlike (SameLanes n) (s.vexOperand3 defaultConfiguration seg n len src3)
      (s'.vexOperand3 defaultConfiguration seg n len src3) := by
  cases src3 with
  | reg r => exact .next (hv (vexReg r))
  | mem a =>
    obtain h | ⟨v, k, rfl⟩ := h3
    · cases h
    · exact .of_eq (fun _ _ _ => rfl) rfl

theorem evexOperand3_endAlike {k : WriteMask} {src3 : EvexOperandEr}
    (hk : ∀ j < n, s'.laneActive k j = s.laneActive k j)
    (h3 : evexMemOperand n seg k src3 = none ∨ s.SameAddressing s') :
    EndAlike (SameLanes n) (s.evexOperand3 defaultConfiguration seg n len k src3)
      (s'.evexOperand3 defaultConfiguration seg n len k src3) := by
  cases src3 with
  | reg r => exact .next (hv r)
  | regEr _ r => exact .next (hv r)
  | mem a =>
    obtain h | ⟨v, k', rfl⟩ := h3
    · cases h
    · exact .of_eq (fun _ _ _ => rfl) (loadFull_congr s _ hk)
  | bcst a =>
    obtain h | ⟨v, k', rfl⟩ := h3
    · cases h
    · exact .of_eq (fun _ _ _ => rfl) (loadBroadcast_congr s _ hk)

end Operand3

/-! ## The forms -/

/-- How many elements a form of 128 or 256 bits has; `l` is `VEX.L` or the low bit of `L'L` (30_encoding.md R65, R75). -/
def lanesOf (l : Bool) : Nat := if l then 4 else 2

/-- The fifteen forms are the rows of the three families of the decoder (R60), which keep every operand in view. -/
theorem forms_cases {P : Instr → Prop}
    (vex : ∀ o l seg dest src2 src3, P (vexInstr o l seg dest src2 src3))
    (evex : ∀ o l seg dest src2 k src3, P (evexInstr o l seg dest src2 k src3))
    (evex512 : ∀ o seg dest src2 k src3, P (evexInstr512 o seg dest src2 k src3)) (i : Instr) : P i := by
  cases i with
  | vfnmsub132pdVex128 => exact vex .o132 false ..
  | vfnmsub213pdVex128 => exact vex .o213 false ..
  | vfnmsub231pdVex128 => exact vex .o231 false ..
  | vfnmsub132pdVex256 => exact vex .o132 true ..
  | vfnmsub213pdVex256 => exact vex .o213 true ..
  | vfnmsub231pdVex256 => exact vex .o231 true ..
  | vfnmsub132pdEvex128 => exact evex .o132 false ..
  | vfnmsub213pdEvex128 => exact evex .o213 false ..
  | vfnmsub231pdEvex128 => exact evex .o231 false ..
  | vfnmsub132pdEvex256 => exact evex .o132 true ..
  | vfnmsub213pdEvex256 => exact evex .o213 true ..
  | vfnmsub231pdEvex256 => exact evex .o231 true ..
  | vfnmsub132pdEvex512 => exact evex512 .o132 ..
  | vfnmsub213pdEvex512 => exact evex512 .o213 ..
  | vfnmsub231pdEvex512 => exact evex512 .o231 ..

section Families

variable (o : FmaOrder) (l : Bool) (seg : Option Seg)

section Vex

variable (dest src2 : BitVec 4) (src3 : VexOperand)

@[simp] theorem exec_vexInstr (s : State) : exec (vexInstr o l seg dest src2 src3) s =
    vexFnmsub defaultConfiguration o (lanesOf l) seg dest src2 src3 s := by
  cases o <;> cases l <;> rfl

@[simp] theorem destOf_vexInstr : destOf (vexInstr o l seg dest src2 src3) = vexReg dest := by
  cases o <;> cases l <;> rfl

@[simp] theorem vectorLength_vexInstr : vectorLength (vexInstr o l seg dest src2 src3) = 64 * lanesOf l := by
  cases o <;> cases l <;> rfl

@[simp] theorem memOperand_vexInstr :
    memOperand (vexInstr o l seg dest src2 src3) = vexMemOperand (lanesOf l) seg src3 := by
  cases o <;> cases l <;> rfl

end Vex

section Evex

variable (dest src2 : BitVec 5) (k : WriteMask) (src3 : EvexOperand) (src3Er : EvexOperandEr)

@[simp] theorem exec_evexInstr (s : State) : exec (evexInstr o l seg dest src2 k src3) s =
    evexFnmsub defaultConfiguration o (lanesOf l) seg dest src2 k (evexOperandEr src3) s := by
  cases o <;> cases l <;> rfl

@[simp] theorem destOf_evexInstr : destOf (evexInstr o l seg dest src2 k src3) = dest := by
  cases o <;> cases l <;> rfl

@[simp] theorem vectorLength_evexInstr : vectorLength (evexInstr o l seg dest src2 k src3) = 64 * lanesOf l := by
  cases o <;> cases l <;> rfl

@[simp] theorem memOperand_evexInstr :
    memOperand (evexInstr o l seg dest src2 k src3) = evexMemOperand (lanesOf l) seg k (evexOperandEr src3) := by
  cases o <;> cases l <;> rfl

@[simp] theorem exec_evexInstr512 (s : State) : exec (evexInstr512 o seg dest src2 k src3Er) s =
    evexFnmsub defaultConfiguration o 8 seg dest src2 k src3Er s := by
  cases o <;> rfl

@[simp] theorem destOf_evexInstr512 : destOf (evexInstr512 o seg dest src2 k src3Er) = dest := by
  cases o <;> rfl

@[simp] theorem vectorLength_evexInstr512 : vectorLength (evexInstr512 o seg dest src2 k src3Er) = 64 * 8 := by
  cases o <;> rfl

@[simp] theorem memOperand_evexInstr512 :
    memOperand (evexInstr512 o seg dest src2 k src3Er) = evexMemOperand 8 seg k src3Er := by
  cases o <;> rfl

end Evex

end Families

/-- An instruction ends alike in two states of the same control state that agree on the elements and mask bits within its
length, if operand 3 is a register or is read alike. -/
theorem exec_endAlike {s s' : State} {i : Instr} (hc : s.SameControl s')
    (hv : ∀ r, SameLanes (vectorLength i / 64) (s.readV r) (s'.readV r))
    (hk : ∀ k : WriteMask, ∀ j < vectorLength i / 64, s'.laneActive k j = s.laneActive k j)
    (h3 : memOperand i = none ∨ s.SameAddressing s') :
    EndAlike (BothCompleted s s' (destOf i)) (exec i s) (exec i s') := by
  cases i using forms_cases with
  | vex o l seg dest src2 src3 =>
    simp only [exec_vexInstr, destOf_vexInstr, vectorLength_vexInstr, memOperand_vexInstr,
      Nat.ofNat_pos, Nat.mul_div_cancel_left] at hv h3 ⊢
    exact vexFnmsub_endAlike hc hv (vexOperand3_endAlike hv h3)
  | evex o l seg dest src2 k src3 =>
    simp only [exec_evexInstr, destOf_evexInstr, vectorLength_evexInstr, memOperand_evexInstr,
      Nat.ofNat_pos, Nat.mul_div_cancel_left] at hv hk h3 ⊢
    exact evexFnmsub_endAlike hc hv (hk k) (evexOperand3_endAlike hv (hk k) h3)
  | evex512 o seg dest src2 k src3 =>
    simp only [exec_evexInstr512, destOf_evexInstr512, vectorLength_evexInstr512, memOperand_evexInstr512,
      Nat.ofNat_pos, Nat.mul_div_cancel_left] at hv hk h3 ⊢
    exact evexFnmsub_endAlike hc hv (hk k) (evexOperand3_endAlike hv (hk k) h3)

/-! ## Refusals -/

theorem commit_ne_refused {s : State} {dest : BitVec 5} {masks : BitVec 6} {suppress : Bool} {rs : List LaneResult}
    {len : Nat} {r : Refusal} : s.commit dest masks suppress rs len ≠ .refused r := by
  unfold State.commit raise
  split <;> simp

theorem vexFnmsub_ne_refused {c : Configuration} {o : FmaOrder} {n m : Nat} {seg : Option Seg} {dest src2 : BitVec 4}
    {src3 : VexOperand} {s : State} {r : Refusal} (h : vexMemOperand m seg src3 = none) :
    vexFnmsub c o n seg dest src2 src3 s ≠ .refused r := by
  unfold vexFnmsub
  split
  · simp [raise]
  · cases src3 with
    | reg => exact commit_ne_refused
    | mem => cases h

theorem evexFnmsub_ne_refused {c : Configuration} {o : FmaOrder} {n m : Nat} {seg : Option Seg} {dest src2 : BitVec 5}
    {k : WriteMask} {src3 : EvexOperandEr} {s : State} {r : Refusal} (h : evexMemOperand m seg k src3 = none) :
    evexFnmsub c o n seg dest src2 k src3 s ≠ .refused r := by
  unfold evexFnmsub
  split
  · simp [raise]
  · cases src3 with
    | reg | regEr => exact commit_ne_refused
    | mem | bcst => cases h

/-- A form is refused only for its memory operand (20_memory.md R47). -/
theorem exec_ne_refused {s : State} {i : Instr} {r : Refusal} (h : memOperand i = none) : exec i s ≠ .refused r := by
  cases i using forms_cases with
  | vex => rw [exec_vexInstr]; rw [memOperand_vexInstr] at h; exact vexFnmsub_ne_refused h
  | evex => rw [exec_evexInstr]; rw [memOperand_evexInstr] at h; exact evexFnmsub_ne_refused h
  | evex512 => rw [exec_evexInstr512]; rw [memOperand_evexInstr512] at h; exact evexFnmsub_ne_refused h

/-! ## What is not read -/

/-- Settles O37: elements below the vector length and mask bits below `KL` are the same, so the form ends alike. -/
theorem unreadBits : Obligations.UnreadBits := by
  intro i s v k hv hk
  have hlanes : ∀ r, SameLanes (vectorLength i / 64) (s.readV r) (State.readV { s with v := v, k := k } r) := by
    intro r j hj
    apply BitVec.eq_of_getLsbD_eq
    intro b hb
    simpa [lane, hb] using hv r (64 * j + b) (by omega)
  have hmask : ∀ m : WriteMask, ∀ j < vectorLength i / 64,
      State.laneActive { s with v := v, k := k } m j = s.laneActive m j := by
    intro m j hj
    unfold State.laneActive
    rw [hk m.aaa j (by omega)]
  have halike := exec_endAlike (s := s) (s' := { s with v := v, k := k }) (i := i)
    ⟨rfl, rfl, rfl, rfl, rfl, rfl, rfl, rfl⟩ hlanes hmask (.inr ⟨v, k, rfl⟩)
  revert halike
  generalize exec i s = o, exec i { s with v := v, k := k } = o'
  intro halike
  cases halike with
  | fault | refused => rfl
  | next h =>
    obtain ⟨suppress, rs, len, rfl, rfl⟩ := h
    exact ⟨_, rfl, by simp, rfl, rfl⟩

/-- Settles O38: a register operand is read without an address, and control state, registers and masks are the same. -/
theorem registerFormsIgnoreAddressing : Obligations.RegisterFormsIgnoreAddressing := by
  intro i s x mem base text h3 s'
  have halike := exec_endAlike (s := s) (s' := s') (i := i) ⟨rfl, rfl, rfl, rfl, rfl, rfl, rfl, rfl⟩
    (fun _ _ _ => rfl) (fun _ _ _ => rfl) (.inl h3)
  have hrefused := fun r => exec_ne_refused (s := s) (r := r) h3
  revert halike hrefused
  generalize exec i s = o, exec i s' = o'
  intro halike hrefused
  cases halike with
  | fault => rfl
  | refused r => exact hrefused r rfl
  | next h =>
    obtain ⟨suppress, rs, len, rfl, rfl⟩ := h
    exact ⟨_, rfl, rfl, rfl, rfl⟩

end Sys2Proof.Machine
end

section
/-! Reading memory: the elements of a canonical memory (20_memory.md R42, R48, R55). -/

namespace Sys2Proof.Machine

open Sys2Proof

/-! ## Memory and its elements -/

/-- Little-endian: bit `i` of the joined bytes is bit `i % 8` of byte `i / 8` (R42). -/
theorem joinBytes_getLsbD (bs : List Byte) (i : Nat) (hi : i < 64) :
    (joinBytes bs).getLsbD i = (bs.getD (i / 8) 0).getLsbD (i % 8) := by
  induction bs generalizing i with
  | nil => simp [joinBytes]
  | cons b bs ih =>
    by_cases h : i < 8
    · simp [joinBytes, h, hi, Nat.div_eq_of_lt h, Nat.mod_eq_of_lt h]
    · obtain ⟨k, rfl⟩ : ∃ k, i = k + 8 := ⟨i - 8, by omega⟩
      have hk : k < 64 := by omega
      simpa [joinBytes, hi, hk] using ih k hk

theorem joinBytes_extractLsb' (bs : List Byte) {i : Nat} (hi : i < 8) :
    (joinBytes bs).extractLsb' (8 * i) 8 = bs.getD i 0 := by
  apply BitVec.eq_of_getLsbD_eq
  intro j hj
  have hdiv : (8 * i + j) / 8 = i := by omega
  have hmod : (8 * i + j) % 8 = j := by omega
  rw [BitVec.getLsbD_extractLsb', joinBytes_getLsbD _ _ (by omega), hdiv, hmod]
  simp [hj]

theorem elemReadable_iff {s : State} {a : Nat} :
    s.elemReadable a = true ↔ ∀ i < 8, ∃ b, s.readByte (a + i) = some b := by
  simp [State.elemReadable, Option.isSome_iff_exists]

/-- A canonical memory lists its first address nowhere else: all others are above it. -/
theorem Memory.lt_of_mem {c d : Host.Cell} {m : Memory} (h : Memory.wf (c :: m) = true) (hd : d ∈ m) : c.1 < d.1 := by
  induction m generalizing c with
  | nil => cases hd
  | cons e m ih =>
    obtain ⟨-, hce, hm⟩ := Memory.wf_cons.mp h
    have hlt : c.1 < e.1 := hce e rfl
    obtain rfl | hd := List.mem_cons.mp hd
    · exact hlt
    · exact hlt.trans (ih hm hd)

theorem Memory.read_eq_some {m : Memory} (h : Memory.wf m = true) {a : Nat} {b : Byte} :
    Memory.read m a = some b ↔ (a, b) ∈ m := by
  induction m with
  | nil => simp [Memory.read]
  | cons c m ih =>
    obtain ⟨-, -, hm⟩ := Memory.wf_cons.mp h
    by_cases hc : c.1 = a
    · have hnot : (a, b) ∉ m := fun hmem => (hc ▸ Memory.lt_of_mem h hmem).ne rfl
      simp [Memory.read, hc, hnot, Prod.ext_iff, eq_comm]
    · simp [Memory.read, hc, ih hm, Prod.ext_iff, Ne.symm hc]

/-- Settles O41, by the bytes of `joinBytes` and by what reading a canonical memory answers. -/
theorem littleEndian : Obligations.LittleEndian := by
  refine ⟨fun s a h i hi => ?_, fun s a b h => ?_⟩
  · obtain ⟨b, hb⟩ := elemReadable_iff.mp h i hi
    rw [State.readElem, joinBytes_extractLsb' _ hi]
    simp [hi, hb]
  · unfold State.readByte
    split
    · rename_i ha
      simp [ha, Memory.read_eq_some h]
    · rename_i ha
      simp [ha]

end Sys2Proof.Machine
end

section
/-! What no step and no run changes (10_state.md R26, R27; 20_memory.md R40, R50): all but the vector registers, `pc`
and the status flags, which are only ever set, ZE not even that. -/

namespace Sys2Proof.Machine

open Sys2Proof

/-! ## ZE is never detected -/

theorem denormalFlag_ze (x y z : Elem) : (denormalFlag x y z).getLsbD 2 = false := by
  unfold denormalFlag
  split <;> rfl

theorem tinyResult_ze (rm : Rounding) (ftz um neg : Bool) (n : Nat) :
    (tinyResult rm ftz um neg n).2.getLsbD 2 = false := by
  unfold tinyResult
  split
  · simp [flagUE, flagPE]
  · dsimp only
    split
    · cases um <;> rfl
    · rfl

theorem roundResult_ze (rm : Rounding) (ftz um neg : Bool) (n : Nat) :
    (roundResult rm ftz um neg n).2.getLsbD 2 = false := by
  unfold roundResult
  split
  · simp [flagOE, flagPE]
  split
  · exact tinyResult_ze ..
  · dsimp only
    split <;> rfl

/-- No element operation detects Divide-by-zero (10_state.md R26). -/
theorem fnmsubCases_ze (nan : BitVec 52) (rm : Rounding) (ftz um : Bool) (x y z : Elem) :
    (fnmsubCases nan rm ftz um x y z).2.getLsbD 2 = false := by
  unfold fnmsubCases
  split
  · dsimp only
    split <;> rfl
  split
  · rfl
  iterate 4
    split
    · exact denormalFlag_ze ..
  rw [BitVec.getLsbD_or, denormalFlag_ze, roundResult_ze]
  rfl

theorem computeLane_ze (s : State) (o : FmaOrder) (rm : Rounding) (masks : BitVec 6) (act : Nat → Bool) (zeroing : Bool)
    (va vb vc : Vec) (j : Nat) :
    (s.computeLane defaultConfiguration o rm masks act zeroing va vb vc j).flags.getLsbD 2 = false := by
  unfold State.computeLane
  split
  · exact fnmsubCases_ze ..
  · simp

/-- The flags of an instruction are those that some element detects (60_exceptions.md R164). -/
theorem laneFlags_getLsbD (rs : List LaneResult) (b : Nat) :
    (laneFlags rs).getLsbD b = rs.any fun r => r.flags.getLsbD b := by
  induction rs with
  | nil => simp [laneFlags, unionFlags]
  | cons r rs ih => exact BitVec.getLsbD_or.trans (congrArg (r.flags.getLsbD b || ·) ih)

theorem mxcsrOr_getLsbD (m : BitVec 32) (f : BitVec 6) (b : Nat) :
    (mxcsrOr m f).getLsbD b = (m.getLsbD b || f.getLsbD b) := by
  have hf : 32 ≤ b → f.getLsbD b = false := fun hb => BitVec.getLsbD_of_ge _ _ (by omega)
  by_cases hb : b < 32
  · simp [mxcsrOr, hb]
  · simp [mxcsrOr, hf (by omega)]

theorem completed_ze {s : State} {dest : BitVec 5} {suppress : Bool} {rs : List LaneResult} {len : Nat}
    (h : ∀ r ∈ rs, r.flags.getLsbD 2 = false) :
    (s.completed dest suppress rs len).mxcsr.getLsbD 2 = s.mxcsr.getLsbD 2 := by
  have hz : (laneFlags rs).getLsbD 2 = false := by
    rw [laneFlags_getLsbD, List.any_eq_false]
    simpa using h
  cases suppress with
  | true => rfl
  | false => exact (mxcsrOr_getLsbD ..).trans (by rw [hz, Bool.or_false])

theorem exec_ze {i : Instr} {s t : State} (h : exec i s = .next t) : t.mxcsr.getLsbD 2 = s.mxcsr.getLsbD 2 := by
  cases i using forms_cases with
  | vex =>
    obtain ⟨-, vc, -, rs, rfl, -, rfl⟩ := vexFnmsub_eq_next (exec_vexInstr .. ▸ h)
    exact completed_ze (List.forall_mem_map.mpr fun _ _ => computeLane_ze ..)
  | evex =>
    obtain ⟨-, vc, -, rs, rfl, -, rfl⟩ := evexFnmsub_eq_next (exec_evexInstr .. ▸ h)
    exact completed_ze (List.forall_mem_map.mpr fun _ _ => computeLane_ze ..)
  | evex512 =>
    obtain ⟨-, vc, -, rs, rfl, -, rfl⟩ := evexFnmsub_eq_next (exec_evexInstr512 .. ▸ h)
    exact completed_ze (List.forall_mem_map.mpr fun _ _ => computeLane_ze ..)

/-! ## What a run keeps -/

/-- `t` has the launch state of `s`: only `V`, `pc`, the draw counter and the sticky flags of MXCSR but ZE may differ. -/
structure State.SameLaunch (s t : State) : Prop where
  k : t.k = s.k
  x : t.x = s.x
  sys : t.sys = s.sys
  params : t.params = s.params
  mem : t.mem = s.mem
  text : t.text = s.text
  control : t.mxcsr.extractLsb' 6 26 = s.mxcsr.extractLsb' 6 26
  sticky : ∀ b < 6, s.mxcsr.getLsbD b = true → t.mxcsr.getLsbD b = true
  ze : t.mxcsr.getLsbD 2 = s.mxcsr.getLsbD 2

theorem State.SameLaunch.refl (s : State) : s.SameLaunch s :=
  ⟨rfl, rfl, rfl, rfl, rfl, rfl, rfl, fun _ _ h => h, rfl⟩

theorem State.SameLaunch.trans {s t u : State} (h : s.SameLaunch t) (h' : t.SameLaunch u) : s.SameLaunch u where
  k := h'.k.trans h.k
  x := h'.x.trans h.x
  sys := h'.sys.trans h.sys
  params := h'.params.trans h.params
  mem := h'.mem.trans h.mem
  text := h'.text.trans h.text
  control := h'.control.trans h.control
  sticky b hb hs := h'.sticky b hb (h.sticky b hb hs)
  ze := h'.ze.trans h.ze

theorem State.SameLaunch.readByte {s t : State} (h : s.SameLaunch t) (a : Nat) : t.readByte a = s.readByte a := by
  rw [State.readByte, State.readByte, h.params, h.mem]

theorem exec_sameLaunch {i : Instr} {s t : State} (h : exec i s = .next t) : s.SameLaunch t := by
  have hze := exec_ze h
  obtain ⟨-, suppress, rs, -, rfl⟩ := execWith_eq_next (exec_eq_execWith i s ▸ h)
  exact ⟨rfl, rfl, rfl, rfl, rfl, rfl, completed_mxcsr_upper, fun _ _ => completed_mxcsr_sticky, hze⟩

theorem step_sameLaunch {s t : State} (h : step s = .next t) : s.SameLaunch t := by
  obtain ⟨-, i, -, hexec⟩ := step_eq_next h
  exact exec_sameLaunch hexec

/-- A reflexive and transitive relation that holds along every step holds along every run. -/
theorem Reaches.rel {R : State → State → Prop} (refl : ∀ s, R s s) (trans : ∀ {s t u}, R s t → R t u → R s u)
    (single : ∀ {s t}, Machine.step s = .next t → R s t) {s t : State} (h : Reaches s t) : R s t := by
  induction h with
  | refl s => exact refl s
  | step first _ ih => exact trans (single first) ih

/-- Settles O16, by what the instruction of the step leaves. -/
theorem stepKeepsLaunchState : Obligations.StepKeepsLaunchState := by
  intro s t h
  have hs := step_sameLaunch h
  exact ⟨hs.k, hs.x, hs.sys, hs.params, hs.readByte, hs.text, hs.control, hs.sticky, hs.ze⟩

/-- Settles O17: a run is steps, each of which keeps the launch state. -/
theorem runKeepsLaunchState : Obligations.RunKeepsLaunchState := by
  intro s t h
  have hs := h.rel State.SameLaunch.refl State.SameLaunch.trans step_sameLaunch
  exact ⟨hs.k, hs.x, hs.sys, hs.params, hs.mem, hs.text, hs.control, hs.ze, hs.sticky⟩

end Sys2Proof.Machine
end

section
/-! Memory operands: when reading one faults, is refused, or succeeds (20_memory.md R44, R47, R55). The two reads ask the
same three questions in the same order (`MemOperand.LoadSpec.of_ite`); a form that passes its checks reads operand 3 and then
commits (`ExecSpec`). -/

namespace Sys2Proof.Machine

open Sys2Proof

/-! ## The checks that read no data -/

theorem vexCheck_eq_none {s : State} : s.vexCheck = none ↔ s.VexReady := by
  unfold State.vexCheck State.VexReady
  grind

theorem ud_or_nm_of_vexCheck {s : State} {f : Fault} (h : s.vexCheck = some f) : f = .ud ∨ f = .nm := by
  unfold State.vexCheck at h
  split_ifs at h <;> simp_all

theorem evexCheck_eq_none {s : State} {n : Nat} {k : WriteMask} :
    s.evexCheck n k = none ↔ s.EvexReady n ∧ k.wf = true := by
  unfold State.evexCheck State.EvexReady WriteMask.wf
  grind

theorem ud_or_nm_of_evexCheck {s : State} {n : Nat} {k : WriteMask} {f : Fault} (h : s.evexCheck n k = some f) :
    f = .ud ∨ f = .nm := by
  unfold State.evexCheck at h
  split_ifs at h <;> simp_all

section Families

variable (o : FmaOrder) (l : Bool) (seg : Option Seg)

@[simp] theorem length_vexInstr (dest src2 : BitVec 4) (src3 : VexOperand) :
    (vexInstr o l seg dest src2 src3).length = vexLength seg src3.length := by
  cases o <;> cases l <;> rfl

@[simp] theorem ready_vexInstr (dest src2 : BitVec 4) (src3 : VexOperand) (s : State) :
    s.Ready (vexInstr o l seg dest src2 src3) = s.VexReady := by
  cases o <;> cases l <;> rfl

variable (dest src2 : BitVec 5) (k : WriteMask)

@[simp] theorem length_evexInstr (src3 : EvexOperand) :
    (evexInstr o l seg dest src2 k src3).length = evexLength seg (evexOperandEr src3).length := by
  rw [evexOperandEr_length]
  cases o <;> cases l <;> rfl

@[simp] theorem ready_evexInstr (src3 : EvexOperand) (s : State) :
    s.Ready (evexInstr o l seg dest src2 k src3) = (s.EvexReady (lanesOf l) ∧ k.wf = true) := by
  cases o <;> cases l <;> rfl

@[simp] theorem length_evexInstr512 (src3 : EvexOperandEr) :
    (evexInstr512 o seg dest src2 k src3).length = evexLength seg src3.length := by
  cases o <;> rfl

@[simp] theorem ready_evexInstr512 (src3 : EvexOperandEr) (s : State) :
    s.Ready (evexInstr512 o seg dest src2 k src3) = (s.EvexReady 8 ∧ k.wf = true) := by
  cases o <;> rfl

end Families

/-! ## Reading operand 3 -/

/-- A computed element has an unreadable byte. -/
def MemOperand.ComputedUnreadable (o : MemOperand) (s : State) (len : Nat) : Prop :=
  ∃ j < o.lanes, o.Computed s j ∧ o.Unreadable s len j

/-- What reading the memory operand of an instruction of `len` bytes can answer, and when (20_memory.md R44, R47, R55). -/
inductive MemOperand.LoadSpec (o : MemOperand) (s : State) (len : Nat) : Host.Outcome Vec Fault Refusal → Prop
  | memoryFault (c : MemoryFaultClass) (h : o.ComputedUnreadable s len) : LoadSpec o s len (.fault (.memory c))
  | refused (hc : ¬o.ComputedUnreadable s len) (hu : ∃ j < o.lanes, o.Unreadable s len j)
      (hs : s.params.faultSuppression = false) : LoadSpec o s len (.refused .maskedOffFault)
  | misaligned (hc : ¬o.ComputedUnreadable s len)
      (hs : s.params.faultSuppression = false → ∀ j < o.lanes, ¬o.Unreadable s len j) (ha : s.acCheck = true) :
      LoadSpec o s len (.fault .ac)
  | read (v : Vec) (hc : ¬o.ComputedUnreadable s len)
      (hs : s.params.faultSuppression = false → ∀ j < o.lanes, ¬o.Unreadable s len j)
      (ha : s.acCheck = true → o.bcst = true → o.elemAt s len 0 % 8 = 0) : LoadSpec o s len (.next v)

theorem laneActive_iff {o : MemOperand} {s : State} {j : Nat} : s.laneActive o.mask j = true ↔ o.Computed s j := by
  simp [State.laneActive, MemOperand.Computed]

theorem unreadable_iff {o : MemOperand} {s : State} {len j : Nat} :
    o.Unreadable s len j ↔ s.elemReadable (o.elemAt s len j) = false := by
  rw [← Bool.not_eq_true, elemReadable_iff]
  simp [MemOperand.Unreadable, Option.eq_none_iff_forall_ne_some]

/-- Both reads ask for a memory fault first, then for the refusal, then for alignment. -/
theorem MemOperand.LoadSpec.of_ite {o : MemOperand} {s : State} {len : Nat} {computed unread misaligned : Bool}
    (hcomputed : computed = true ↔ o.ComputedUnreadable s len)
    (hunread : unread = true ↔ ∃ j < o.lanes, o.Unreadable s len j)
    (hac : misaligned = true → s.acCheck = true)
    (hbcst : misaligned = false → s.acCheck = true → o.bcst = true → o.elemAt s len 0 % 8 = 0)
    (c : MemoryFaultClass) (v : Vec) :
    o.LoadSpec s len (if computed then raise (.memory c)
      else if unread && !s.params.faultSuppression then .refused .maskedOffFault
      else if misaligned then raise .ac else .next v) := by
  by_cases hc : computed = true
  · rw [if_pos hc]
    exact .memoryFault c (hcomputed.mp hc)
  rw [if_neg hc]
  have hc := mt hcomputed.mpr hc
  by_cases hs : (unread && !s.params.faultSuppression) = true
  · rw [if_pos hs]
    obtain ⟨hu, hoff⟩ := Bool.and_eq_true_iff.mp hs
    exact .refused hc (hunread.mp hu) (by simpa using hoff)
  rw [if_neg hs]
  have hs : s.params.faultSuppression = false → ∀ j < o.lanes, ¬o.Unreadable s len j :=
    fun hoff j hj hu => hs (by simp [hunread.mpr ⟨j, hj, hu⟩, hoff])
  cases misaligned with
  | true => exact .misaligned hc hs (hac rfl)
  | false => exact .read v hc hs (hbcst rfl)

theorem loadFull_spec {o : MemOperand} (s : State) (len : Nat) (hb : o.bcst = false) :
    o.LoadSpec s len
      (s.loadFull (s.effectiveAddress o.seg o.addr len o.scale) o.lanes (s.laneActive o.mask)) := by
  have hat : ∀ j, o.elemAt s len j = (s.effectiveAddress o.seg o.addr len o.scale).toNat + 8 * j := by
    simp [MemOperand.elemAt, hb]
  refine .of_ite ?_ ?_ ?_ ?_ _ _
  · simp [MemOperand.ComputedUnreadable, unreadable_iff, laneActive_iff, hat]
  · simp [unreadable_iff, hat]
  · simp +contextual
  · simp [hb]

theorem loadBroadcast_spec {o : MemOperand} (s : State) (len : Nat) (hb : o.bcst = true) (hpos : 0 < o.lanes) :
    o.LoadSpec s len
      (s.loadBroadcast (s.effectiveAddress o.seg o.addr len o.scale) o.lanes (s.laneActive o.mask)) := by
  have hat : ∀ j, o.elemAt s len j = (s.effectiveAddress o.seg o.addr len o.scale).toNat := by
    simp [MemOperand.elemAt, hb]
  refine .of_ite ?_ ?_ ?_ ?_ _ _
  · simp [MemOperand.ComputedUnreadable, unreadable_iff, laneActive_iff, hat, ← exists_and_right, and_assoc]
  · simpa [unreadable_iff, hat] using fun _ => ⟨0, hpos⟩
  · simp +contextual
  · simp +contextual [hat]

/-- What the read of operand 3 can answer, `m` being the memory operand if there is one: a register is always read. -/
def Operand3Spec (m : Option MemOperand) (s : State) (len : Nat) (r : Host.Outcome Vec Fault Refusal) : Prop :=
  match m with
  | none => ∃ v, r = .next v
  | some o => o.LoadSpec s len r

theorem vexOperand3_spec (s : State) (seg : Option Seg) (n len : Nat) (src3 : VexOperand) :
    Operand3Spec (vexMemOperand n seg src3) s len (s.vexOperand3 defaultConfiguration seg n len src3) := by
  cases src3 with
  | reg r => exact ⟨_, rfl⟩
  | mem a => exact loadFull_spec (o := ⟨seg, a, 1, n, false, ⟨0, false⟩⟩) s len rfl

theorem evexOperand3_spec (s : State) (seg : Option Seg) {n : Nat} (hn : 0 < n) (len : Nat) (k : WriteMask)
    (src3 : EvexOperandEr) :
    Operand3Spec (evexMemOperand n seg k src3) s len (s.evexOperand3 defaultConfiguration seg n len k src3) := by
  cases src3 with
  | reg | regEr => exact ⟨_, rfl⟩
  | mem a => exact loadFull_spec (o := ⟨seg, a, 8 * n, n, false, k⟩) s len rfl
  | bcst a => exact loadBroadcast_spec (o := ⟨seg, a, 8, n, true, k⟩) s len rfl hn

/-! ## How a form ends -/

/-- Committing ends in no fault but that of an unmasked floating-point exception (60_exceptions.md R162, R163). -/
theorem commit_ne_fault {s : State} {dest : BitVec 5} {masks : BitVec 6} {suppress : Bool} {rs : List LaneResult}
    {len : Nat} {f : Fault} (hxm : ∀ m, f ≠ .xm m) (hud : ∀ m, f ≠ .udSimd m) :
    s.commit dest masks suppress rs len ≠ .fault f := by
  unfold State.commit raise State.simdFault
  split
  · dsimp only
    split
    · simpa using (hxm _).symm
    · simpa using (hud _).symm
  · simp

theorem lanesOf_pos (l : Bool) : 0 < lanesOf l := by
  cases l <;> decide

/-- The ends of a form (41_vfnmsub_vex.md R130, 42_vfnmsub_evex.md R140): not enabled, or operand 3 is read and the
results are committed. -/
inductive ExecSpec (i : Instr) (s : State) : Host.Outcome State Fault Refusal → Prop
  | notEnabled (f : Fault) (hf : f = .ud ∨ f = .nm) (hr : ¬s.Ready i) : ExecSpec i s (.fault f)
  | operand3 (r : Host.Outcome Vec Fault Refusal) (h3 : Operand3Spec (memOperand i) s i.length r) (dest : BitVec 5)
      (masks : BitVec 6) (suppress : Bool) (rs : Vec → List LaneResult) :
      ExecSpec i s (andThen r fun vc => s.commit dest masks suppress (rs vc) i.length)

theorem evexFnmsub_spec {i : Instr} {s : State} {o : FmaOrder} {n : Nat} (hn : 0 < n) {seg : Option Seg}
    {dest src2 : BitVec 5} {k : WriteMask} {src3 : EvexOperandEr} (hready : s.Ready i → s.EvexReady n ∧ k.wf = true)
    (hlen : i.length = evexLength seg src3.length) (hmem : memOperand i = evexMemOperand n seg k src3) :
    ExecSpec i s (evexFnmsub defaultConfiguration o n seg dest src2 k src3 s) := by
  unfold evexFnmsub
  split
  next f hf =>
    refine .notEnabled f (ud_or_nm_of_evexCheck hf) fun h => ?_
    simp [evexCheck_eq_none.mpr (hready h)] at hf
  next =>
    rw [← hlen]
    exact .operand3 _ (hmem ▸ evexOperand3_spec s seg hn ..) ..

theorem exec_spec (i : Instr) (s : State) : ExecSpec i s (exec i s) := by
  cases i using forms_cases with
  | vex o l seg dest src2 src3 =>
    rw [exec_vexInstr, vexFnmsub]
    split
    next f hf =>
      refine .notEnabled f (ud_or_nm_of_vexCheck hf) fun h => ?_
      rw [ready_vexInstr] at h
      simp [vexCheck_eq_none.mpr h] at hf
    next =>
      rw [← length_vexInstr o l seg dest src2 src3]
      exact .operand3 _ (memOperand_vexInstr o l seg dest src2 src3 ▸ vexOperand3_spec ..) ..
  | evex o l =>
    rw [exec_evexInstr]
    exact evexFnmsub_spec (lanesOf_pos l) (by simp) (length_evexInstr ..) (memOperand_evexInstr ..)
  | evex512 =>
    rw [exec_evexInstr512]
    exact evexFnmsub_spec (by decide) (by simp) (length_evexInstr512 ..) (memOperand_evexInstr512 ..)

/-- A form with a memory operand that passes its checks reads the operand and commits. -/
theorem exec_eq_andThen_load {i : Instr} {s : State} {o : MemOperand} (hmem : memOperand i = some o) (hr : s.Ready i) :
    ∃ r, o.LoadSpec s i.length r ∧ ∃ dest masks suppress, ∃ rs : Vec → List LaneResult,
      exec i s = andThen r fun vc => s.commit dest masks suppress (rs vc) i.length := by
  have h := exec_spec i s
  generalize exec i s = out at h
  cases h with
  | notEnabled f hf hnot => exact absurd hr hnot
  | operand3 r h3 dest masks suppress rs =>
    rw [hmem] at h3
    exact ⟨r, h3, dest, masks, suppress, rs, rfl⟩

/-- Settles O25: the read ends in the fault. -/
theorem memoryFaultRaised : Obligations.MemoryFaultRaised := by
  intro i s o hmem hr hc
  obtain ⟨r, hload, dest, masks, suppress, rs, hexec⟩ := exec_eq_andThen_load hmem hr
  rw [hexec]
  cases hload with
  | memoryFault c => exact ⟨c, rfl⟩
  | refused hnot | misaligned hnot | read _ hnot => exact absurd hc hnot

/-- Settles O26: the read is refused, or it succeeds or ends in #AC(0), and committing is no memory fault and no refusal. -/
theorem maskedOffBytes : Obligations.MaskedOffBytes := by
  intro i s o hmem hr hc hu
  obtain ⟨r, hload, dest, masks, suppress, rs, hexec⟩ := exec_eq_andThen_load hmem hr
  rw [hexec]
  cases hload with
  | memoryFault c h =>
    obtain ⟨j, hj, hcomp, hunread⟩ := h
    exact absurd hunread (hc j hj hcomp)
  | refused _ _ hs => exact ⟨fun _ => rfl, fun hon => by simp [hs] at hon⟩
  | misaligned _ hs => exact ⟨fun hoff => absurd hu (by simpa using hs hoff), fun _ => ⟨by simp, by simp⟩⟩
  | read v _ hs =>
    exact ⟨fun hoff => absurd hu (by simpa using hs hoff),
      fun _ => ⟨fun _ => commit_ne_fault (by simp) (by simp), fun _ => commit_ne_refused⟩⟩

/-! ## Alignment checking -/

theorem acCheck_iff {s : State} :
    s.acCheck = true ↔ s.sys.cr0.getLsbD 18 = true ∧ s.sys.rflags.getLsbD 18 = true ∧ s.sys.cpl = 3 := by
  simp [State.acCheck, and_assoc]

/-- #AC(0) for alignment comes from reading a memory operand under alignment checking (20_memory.md R44). -/
theorem acCheck_of_exec_ac {i : Instr} {s : State} (h : exec i s = .fault .ac) : s.acCheck = true := by
  have hspec := exec_spec i s
  rw [h] at hspec
  generalize hout : Host.Outcome.fault Fault.ac = out at hspec
  cases hspec with
  | notEnabled f hf => cases hout; simp at hf
  | operand3 r h3 dest masks suppress rs =>
    have hcommit : ∀ rs, s.commit dest masks suppress rs i.length ≠ .fault .ac :=
      fun _ => commit_ne_fault (by simp) (by simp)
    cases hm : memOperand i with
    | none =>
      rw [hm] at h3
      obtain ⟨v, rfl⟩ := h3
      exact absurd hout.symm (hcommit _)
    | some o =>
      rw [hm] at h3
      cases h3 with
      | misaligned _ _ ha => exact ha
      | read v => exact absurd hout.symm (hcommit _)
      | memoryFault | refused => cases hout

/-- A misaligned broadcast operand raises #AC(0) where no fault of its bytes and no refusal comes first (R44, D7). -/
theorem exec_broadcast_ac {i : Instr} {s : State} {o : MemOperand} (hmem : memOperand i = some o) (hb : o.bcst = true)
    (hr : s.Ready i) (hac : s.acCheck = true) (hmis : o.elemAt s i.length 0 % 8 ≠ 0)
    (hread : ¬o.Unreadable s i.length 0 ∨ s.params.faultSuppression = true ∧ ∀ j < o.lanes, ¬o.Computed s j) :
    exec i s = .fault .ac := by
  obtain ⟨r, hload, dest, masks, suppress, rs, hexec⟩ := exec_eq_andThen_load hmem hr
  rw [hexec]
  have hsame : ∀ j, o.Unreadable s i.length j ↔ o.Unreadable s i.length 0 := fun j => by
    simp [MemOperand.Unreadable, MemOperand.elemAt, hb]
  cases hload with
  | memoryFault c h =>
    obtain ⟨j, hj, hcomp, hunread⟩ := h
    obtain hz | ⟨-, hnone⟩ := hread
    · exact absurd ((hsame j).mp hunread) hz
    · exact absurd hcomp (hnone j hj)
  | refused _ hu hs =>
    obtain ⟨j, hj, hunread⟩ := hu
    obtain hz | ⟨hon, -⟩ := hread
    · exact absurd ((hsame j).mp hunread) hz
    · simp [hs] at hon
  | misaligned => rfl
  | read _ _ _ ha => exact absurd (ha hac hb) hmis

/-- `s` with RFLAGS.AC clear, so that no alignment check is active. -/
def State.withoutAc (s : State) : State := { s with sys := { s.sys with rflags := clearBit s.sys.rflags 18 } }

/-- A completed form's state with the system registers of `s`. -/
def State.restoreSys (s t : State) : Host.Outcome State Fault Refusal := .next { t with sys := s.sys }

@[simp] theorem clearBit_getElem (w : Word64) (i : Nat) {j : Nat} (hj : j < 64) :
    (clearBit w i)[j] = (w[j] && decide (j ≠ i)) := by
  simp only [clearBit, BitVec.getElem_and, BitVec.getElem_not, BitVec.getElem_shiftLeft, BitVec.getElem_one]
  grind

@[simp] theorem acCheck_withoutAc (s : State) : s.withoutAc.acCheck = false := by
  simp [State.acCheck, State.withoutAc]

@[simp] theorem enabled_withoutAc (s : State) : s.withoutAc.enabled = s.enabled := by
  simp [State.enabled, State.enabledAvx, State.withoutAc]

theorem vexCheck_withoutAc (s : State) : s.withoutAc.vexCheck = s.vexCheck := by
  rw [State.vexCheck, enabled_withoutAc]
  rfl

theorem evexCheck_withoutAc (s : State) (n : Nat) (k : WriteMask) : s.withoutAc.evexCheck n k = s.evexCheck n k := by
  rw [State.evexCheck, enabled_withoutAc]
  rfl

/-- Committing reads of the system registers only what `Enabled` does, and keeps them. -/
theorem commit_withoutAc (s : State) (dest : BitVec 5) (masks : BitVec 6) (suppress : Bool) (rs : List LaneResult)
    (len : Nat) : s.commit dest masks suppress rs len =
      andThen (s.withoutAc.commit dest masks suppress rs len) s.restoreSys := by
  have hfault : ∀ detected, s.withoutAc.simdFault masks detected = s.simdFault masks detected := fun _ => by
    rw [State.simdFault, enabled_withoutAc]
    rfl
  unfold State.commit
  rw [hfault]
  split <;> rfl

/-- Both reads look at alignment last (20_memory.md R44), so without the check they differ where it raises #AC(0) only. -/
theorem ac_or_unchecked {p q misaligned unchecked : Bool} (h : unchecked = false) (x y z : Host.Outcome Vec Fault Refusal) :
    (if p then x else if q then y else if misaligned then raise .ac else z) = .fault .ac ∨
      (if p then x else if q then y else if misaligned then raise .ac else z) =
        if p then x else if q then y else if unchecked then raise .ac else z := by
  subst h
  cases p with
  | true => exact .inr rfl
  | false =>
    cases q with
    | true => exact .inr rfl
    | false =>
      cases misaligned with
      | true => exact .inl rfl
      | false => exact .inr rfl

theorem loadFull_withoutAc (s : State) (ea : Word64) (n : Nat) (act : Nat → Bool) :
    s.loadFull ea n act = .fault .ac ∨ s.loadFull ea n act = s.withoutAc.loadFull ea n act :=
  ac_or_unchecked (by simp) ..

theorem loadBroadcast_withoutAc (s : State) (ea : Word64) (n : Nat) (act : Nat → Bool) :
    s.loadBroadcast ea n act = .fault .ac ∨ s.loadBroadcast ea n act = s.withoutAc.loadBroadcast ea n act :=
  ac_or_unchecked (by simp) ..

theorem vexOperand3_withoutAc (s : State) (seg : Option Seg) (n len : Nat) (src3 : VexOperand) :
    s.vexOperand3 defaultConfiguration seg n len src3 = .fault .ac ∨
      s.vexOperand3 defaultConfiguration seg n len src3 = s.withoutAc.vexOperand3 defaultConfiguration seg n len src3 := by
  cases src3 with
  | reg r => exact .inr rfl
  | mem a => exact loadFull_withoutAc ..

theorem evexOperand3_withoutAc (s : State) (seg : Option Seg) (n len : Nat) (k : WriteMask) (src3 : EvexOperandEr) :
    s.evexOperand3 defaultConfiguration seg n len k src3 = .fault .ac ∨
      s.evexOperand3 defaultConfiguration seg n len k src3 =
        s.withoutAc.evexOperand3 defaultConfiguration seg n len k src3 := by
  cases src3 with
  | reg | regEr => exact .inr rfl
  | mem a => exact loadFull_withoutAc ..
  | bcst a => exact loadBroadcast_withoutAc ..

/-- Committing after the read of operand 3, `r` in `s` and `r'` without the alignment check. -/
theorem andThen_commit_withoutAc {s : State} {r r' : Host.Outcome Vec Fault Refusal} (h : r = .fault .ac ∨ r = r')
    (dest : BitVec 5) (masks : BitVec 6) (suppress : Bool) (rs : Vec → List LaneResult) (len : Nat) :
    andThen r (fun vc => s.commit dest masks suppress (rs vc) len) = .fault .ac ∨
      andThen r (fun vc => s.commit dest masks suppress (rs vc) len) =
        andThen (andThen r' fun vc => s.withoutAc.commit dest masks suppress (rs vc) len) s.restoreSys := by
  obtain rfl | rfl := h
  · exact .inl rfl
  · cases r with
    | next vc => exact .inr (commit_withoutAc ..)
    | fault | refused => exact .inr rfl

theorem vexFnmsub_withoutAc (s : State) (o : FmaOrder) (n : Nat) (seg : Option Seg) (dest src2 : BitVec 4)
    (src3 : VexOperand) :
    vexFnmsub defaultConfiguration o n seg dest src2 src3 s = .fault .ac ∨
      vexFnmsub defaultConfiguration o n seg dest src2 src3 s =
        andThen (vexFnmsub defaultConfiguration o n seg dest src2 src3 s.withoutAc) s.restoreSys := by
  unfold vexFnmsub
  rw [vexCheck_withoutAc]
  split
  · exact .inr rfl
  · exact andThen_commit_withoutAc (vexOperand3_withoutAc ..) ..

theorem evexFnmsub_withoutAc (s : State) (o : FmaOrder) (n : Nat) (seg : Option Seg) (dest src2 : BitVec 5)
    (k : WriteMask) (src3 : EvexOperandEr) :
    evexFnmsub defaultConfiguration o n seg dest src2 k src3 s = .fault .ac ∨
      evexFnmsub defaultConfiguration o n seg dest src2 k src3 s =
        andThen (evexFnmsub defaultConfiguration o n seg dest src2 k src3 s.withoutAc) s.restoreSys := by
  unfold evexFnmsub
  rw [evexCheck_withoutAc]
  split
  · exact .inr rfl
  · exact andThen_commit_withoutAc (evexOperand3_withoutAc ..) ..

/-- RFLAGS.AC matters to a form by #AC(0) only (20_memory.md R44). -/
theorem exec_withoutAc (i : Instr) (s : State) :
    exec i s = .fault .ac ∨ exec i s = andThen (exec i s.withoutAc) s.restoreSys := by
  cases i using forms_cases with
  | vex => simpa only [exec_vexInstr] using vexFnmsub_withoutAc ..
  | evex => simpa only [exec_evexInstr] using evexFnmsub_withoutAc ..
  | evex512 => simpa only [exec_evexInstr512] using evexFnmsub_withoutAc ..

/-- Settles O27, part by part. -/
theorem alignmentCheck : Obligations.AlignmentCheck :=
  ⟨fun _ _ hoff h => hoff (acCheck_iff.mp (acCheck_of_exec_ac h)),
    fun _ _ _ hmem hb hr h1 h2 h3 => exec_broadcast_ac hmem hb hr (acCheck_iff.mpr ⟨h1, h2, h3⟩),
    exec_withoutAc⟩

end Sys2Proof.Machine
end

section
/-! What the bytes of a row select, and which bytes are illegal or out of scope (30_encoding.md R65, R67, R75, R81, R82,
R83). -/

namespace Sys2Proof

open Sys2Proof.Machine

/-! ## Opcode bytes -/

theorem orderOf_eq_some_iff {op : Byte} {o : FmaOrder} : orderOf op = some o ↔ op = opcodeByte o := by
  constructor
  · intro h
    unfold orderOf at h
    split_ifs at h with h132 h213 h231 <;> cases h <;> assumption
  · rintro rfl
    cases o <;> rfl

theorem orderOf_eq_none_iff {op : Byte} : orderOf op = none ↔ op ≠ 0x9E ∧ op ≠ 0xAE ∧ op ≠ 0xBE := by
  unfold orderOf
  split_ifs <;> simp_all

theorem orderOf_isSome {op : Byte} (h : op = 0x9E ∨ op = 0xAE ∨ op = 0xBE) : ∃ o, orderOf op = some o := by
  obtain rfl | rfl | rfl := h <;> exact ⟨_, rfl⟩

/-! ## Bytes without a lead byte -/

theorem decode_of_leadByte_eq_none {m : CpuMode} {b : Byte} (h : leadByte m b = none) (t : List Byte) :
    decode m (b :: t) = decodeBody m none (b :: t) := by
  have hsplit : splitLead m (b :: t) = ([], b :: t) := by simp [splitLead, h]
  cases hbody : decodeBody m none (b :: t) <;>
    simp [decode, hsplit, leadOutOfScope, leadSegment, leadIllegal, hbody]

@[simp] theorem leadByte_vex (m : CpuMode) : leadByte m 0xC4#8 = none := by cases m <;> rfl

@[simp] theorem leadByte_evex (m : CpuMode) : leadByte m 0x62#8 = none := by cases m <;> rfl

theorem decode_vex (m : CpuMode) (t : List Byte) : decode m (0xC4#8 :: t) = decodeVex m none t :=
  decode_of_leadByte_eq_none (leadByte_vex m) t

theorem decode_evex (m : CpuMode) (t : List Byte) : decode m (0x62#8 :: t) = decodeEvex m none t :=
  decode_of_leadByte_eq_none (leadByte_evex m) t

/-! ## The row that the bytes select -/

section Families

variable (o : FmaOrder) (l : Bool) (seg : Option Seg)

@[simp] theorem usesEvex_vexInstr (dest src2 : BitVec 4) (src3 : VexOperand) :
    usesEvex (vexInstr o l seg dest src2 src3) = false := by
  cases o <;> cases l <;> rfl

@[simp] theorem orderOfInstr_vexInstr (dest src2 : BitVec 4) (src3 : VexOperand) :
    orderOfInstr (vexInstr o l seg dest src2 src3) = o := by
  cases o <;> cases l <;> rfl

variable (dest src2 : BitVec 5) (k : WriteMask)

@[simp] theorem usesEvex_evexInstr (src3 : EvexOperand) : usesEvex (evexInstr o l seg dest src2 k src3) = true := by
  cases o <;> cases l <;> rfl

@[simp] theorem orderOfInstr_evexInstr (src3 : EvexOperand) :
    orderOfInstr (evexInstr o l seg dest src2 k src3) = o := by
  cases o <;> cases l <;> rfl

@[simp] theorem usesEvex_evexInstr512 (src3 : EvexOperandEr) :
    usesEvex (evexInstr512 o seg dest src2 k src3) = true := by
  cases o <;> rfl

@[simp] theorem orderOfInstr_evexInstr512 (src3 : EvexOperandEr) :
    orderOfInstr (evexInstr512 o seg dest src2 k src3) = o := by
  cases o <;> rfl

end Families

/-- Operand 3 that `mod`, ModRM and `b` name, of whichever vector length (R74, R75). -/
def evexOperandOf (ll : BitVec 2) (b : Bool) (xb : BitVec 2) : RegOrMem → EvexOperandEr
  | .reg rm => if b then .regEr ll (xb ++ rm) else .reg (xb ++ rm)
  | .mem a => if b then .bcst a else .mem a

/-- An EVEX row is a form of 512 bits where a register operand has `b = 1` or `L'L = 10`, and of 128 or 256 bits
otherwise (R75). -/
theorem evexRow_cases (o : FmaOrder) (seg : Option Seg) (dest src2 : BitVec 5) (k : WriteMask) (ll : BitVec 2) (b : Bool)
    (xb : BitVec 2) (operand : RegOrMem) :
    (((∃ rm, operand = .reg rm) ∧ b = true ∨ ll = 0b10#2) ∧
      evexRow o seg dest src2 k ll b xb operand =
        evexInstr512 o seg dest src2 k (evexOperandOf ll b xb operand)) ∨
    (¬((∃ rm, operand = .reg rm) ∧ b = true) ∧ ll ≠ 0b10#2 ∧ ∃ src3, evexOperandEr src3 = evexOperandOf ll b xb operand ∧
      evexRow o seg dest src2 k ll b xb operand = evexInstr o (ll == 0b01#2) seg dest src2 k src3) := by
  by_cases hll : ll = 0b10#2
  · left
    cases operand <;> cases b <;> simp [evexRow, evexOperandOf, hll]
  · cases operand with
    | reg rm =>
      cases b with
      | true => left; simp [evexRow, evexOperandOf]
      | false => right; exact ⟨by simp, hll, .reg (xb ++ rm), by simp [evexOperandOf, evexOperandEr], by simp [evexRow, hll]⟩
    | mem a =>
      right
      cases b with
      | true => exact ⟨by simp, hll, .bcst a, by simp [evexOperandOf, evexOperandEr], by simp [evexRow, hll]⟩
      | false => exact ⟨by simp, hll, .mem a, by simp [evexOperandOf, evexOperandEr], by simp [evexRow, hll]⟩

section Row

variable (o : FmaOrder) (seg : Option Seg) (dest src2 : BitVec 5) (k : WriteMask) (ll : BitVec 2) (b : Bool)
  (xb : BitVec 2) (operand : RegOrMem)

@[simp] theorem usesEvex_evexRow : usesEvex (evexRow o seg dest src2 k ll b xb operand) = true := by
  obtain ⟨-, hrow⟩ | ⟨-, -, src3, -, hrow⟩ := evexRow_cases o seg dest src2 k ll b xb operand <;> simp [hrow]

@[simp] theorem orderOfInstr_evexRow : orderOfInstr (evexRow o seg dest src2 k ll b xb operand) = o := by
  obtain ⟨-, hrow⟩ | ⟨-, -, src3, -, hrow⟩ := evexRow_cases o seg dest src2 k ll b xb operand <;> simp [hrow]

@[simp] theorem length_evexRow : (evexRow o seg dest src2 k ll b xb operand).length =
    evexLength seg (evexOperandOf ll b xb operand).length := by
  obtain ⟨-, hrow⟩ | ⟨-, -, src3, hsrc3, hrow⟩ := evexRow_cases o seg dest src2 k ll b xb operand
  · simp [hrow]
  · simp [hrow, hsrc3]

end Row

theorem eq_00_or_01_of_ne {ll : BitVec 2} : ll ≠ 0b10#2 → ll ≠ 0b11#2 → ll = 0b00#2 ∨ ll = 0b01#2 := by
  revert ll; decide

/-- R75, once R81 has shut out `L'L = 11` as a length. -/
theorem vectorLength_evexRow (o : FmaOrder) (seg : Option Seg) (dest src2 : BitVec 5) (k : WriteMask) {ll : BitVec 2}
    {b : Bool} (xb : BitVec 2) {operand : RegOrMem} (h : ll = 0b11#2 → (∃ rm, operand = .reg rm) ∧ b = true) :
    vectorLength (evexRow o seg dest src2 k ll b xb operand) =
      if (∃ rm, operand = .reg rm) ∧ b = true then 512 else 128 * 2 ^ ll.toNat := by
  obtain ⟨h512, hrow⟩ | ⟨hreg, hll, src3, -, hrow⟩ := evexRow_cases o seg dest src2 k ll b xb operand
  · rw [hrow, vectorLength_evexInstr512]
    obtain hreg | rfl := h512
    · rw [if_pos hreg]
    · split <;> rfl
  · rw [hrow, vectorLength_evexInstr, if_neg hreg]
    obtain rfl | rfl := eq_00_or_01_of_ne hll fun h11 => hreg (h h11) <;> rfl

/-- ModRM names a register exactly where `mod = 11` (R68). -/
theorem decodeModRm_reg_iff {x b : Bool} {modrm : Byte} {t : List Byte} {operand : RegOrMem}
    (h : decodeModRm x b modrm t = some operand) : (∃ rm, operand = .reg rm) ↔ modrm.field 6 2 = 0b11#2 := by
  unfold decodeModRm at h
  split at h
  case isTrue hmod => cases h; simp [hmod]
  case isFalse hmod =>
    suffices hmem : ∃ a, operand = .mem a by obtain ⟨a, rfl⟩ := hmem; simp [hmod]
    split_ifs at h <;> obtain ⟨d, -, rfl⟩ := Option.map_eq_some_iff.mp h <;> exact ⟨_, rfl⟩

/-! ## Illegal EVEX bytes -/

/-- R81 lines 4 to 7. -/
theorem evexIllegal_eq_none_iff {p0 p1 p2 : Byte} {regOperand : Bool} : evexIllegal p0 p1 p2 regOperand = none ↔
    ¬(p0.field 2 2 ≠ 0b00#2 ∨ p1.getLsbD 2 = false ∨
      (p2.field 5 2 = 0b11#2 ∧ ¬(regOperand = true ∧ p2.getLsbD 4 = true)) ∨
      (p2.getLsbD 7 = true ∧ p2.field 0 3 = 0b000#3)) := by
  unfold evexIllegal
  split_ifs <;> simp_all


/-! ## What the bytes of a row are decoded to -/

/-- The bytes `b1`, `b2`, `op` after C4 are a VEX row of `o` (R62, R65, R67), and neither LES nor BOUND (R83). -/
structure VexRow (m : CpuMode) (b1 b2 op : Byte) (o : FmaOrder) : Prop where
  notLes : m ≠ .long64 → b1.field 6 2 = 0b11#2
  map : b1.field 0 5 = 0b00010#5
  w : b2.getLsbD 7 = true
  pp : b2.field 0 2 = 0b01#2
  order : orderOf op = some o

/-- The bytes `p0`, `p1`, `op` after 62 are an EVEX row of `o` (R64, R66, R67), and neither LES nor BOUND (R83). -/
structure EvexRow (m : CpuMode) (p0 p1 op : Byte) (o : FmaOrder) : Prop where
  notBound : m ≠ .long64 → p0.field 6 2 = 0b11#2
  map : p0.field 0 2 = 0b10#2
  w : p1.getLsbD 7 = true
  pp : p1.field 0 2 = 0b01#2
  order : orderOf op = some o

section VexRow

variable {m : CpuMode} {b1 b2 op modrm : Byte} {o : FmaOrder} {seg : Option Seg} {t : List Byte}

theorem decodeVex_of_high (h : VexRow .prot32 b1 b2 op o) (hhigh : b1.inverted 5 = true ∨ b2.inverted 6 = true) :
    decodeVex .prot32 seg (b1 :: b2 :: op :: modrm :: t) = .outOfScope .highRegister := by
  have hles : ¬(CpuMode.prot32 ≠ .long64 ∧ b1.field 6 2 ≠ 0b11#2) := fun hn => hn.2 (h.notLes hn.1)
  simp only [decodeVex, if_neg hles, h.map, h.w, h.pp, h.order, hhigh]
  rfl

theorem decodeVex_of_operand {operand : RegOrMem} (h : VexRow m b1 b2 op o)
    (hlow : m ≠ .long64 → b1.inverted 5 = false ∧ b2.inverted 6 = false)
    (hoperand : decodeModRm (b1.inverted 6) (b1.inverted 5) modrm t = some operand) :
    decodeVex m seg (b1 :: b2 :: op :: modrm :: t) =
      .instr (vexInstr o (b2.getLsbD 2) seg (extend (b1.inverted 7) (modrm.field 3 3)) (~~~(b2.field 3 4))
        (vexOperandOf (b1.inverted 5) operand)) := by
  have hles : ¬(m ≠ .long64 ∧ b1.field 6 2 ≠ 0b11#2) := fun hn => hn.2 (h.notLes hn.1)
  have hprot : ¬(m = .prot32 ∧ (b1.inverted 5 = true ∨ b2.inverted 6 = true)) := by
    rintro ⟨rfl, hh⟩; simp [hlow] at hh
  have hreal : ¬(m.isReal = true ∧ (b1.inverted 5 = true ∨ b2.inverted 6 = true)) := by
    rintro ⟨hm, hh⟩; have := hlow (by rintro rfl; cases hm); simp [this] at hh
  simp only [decodeVex, if_neg hles, h.map, h.w, h.pp, h.order, if_neg hprot, if_neg hreal, hoperand]
  cases operand <;> rfl

end VexRow

section EvexRow

variable {m : CpuMode} {p0 p1 p2 op modrm : Byte} {o : FmaOrder} {seg : Option Seg} {t : List Byte}

theorem decodeEvex_of_high (h : EvexRow .prot32 p0 p1 op o)
    (hhigh : p0.inverted 5 = true ∨ p0.inverted 4 = true ∨ p1.inverted 6 = true ∨ p2.inverted 3 = true) :
    decodeEvex .prot32 seg (p0 :: p1 :: p2 :: op :: modrm :: t) = .outOfScope .highRegister := by
  have hbound : ¬(CpuMode.prot32 ≠ .long64 ∧ p0.field 6 2 ≠ 0b11#2) := fun hn => hn.2 (h.notBound hn.1)
  simp only [decodeEvex, if_neg hbound, h.map, h.w, h.pp, h.order, hhigh]
  rfl

/-- R30, R81 and R83 are what can stop the bytes of a row from being an instruction. -/
theorem decodeEvex_of_low (h : EvexRow m p0 p1 op o)
    (hlow : m ≠ .long64 → p0.inverted 5 = false ∧ p0.inverted 4 = false ∧ p1.inverted 6 = false ∧ p2.inverted 3 = false) :
    decodeEvex m seg (p0 :: p1 :: p2 :: op :: modrm :: t) =
      (decodeModRm (p0.inverted 6) (p0.inverted 5) modrm t).elim .truncated fun operand =>
        (evexIllegal p0 p1 p2 (modrm.field 6 2 == 0b11#2)).elim
          (.instr (evexRow o seg (BitVec.ofBool (p0.inverted 4) ++ BitVec.ofBool (p0.inverted 7) ++ modrm.field 3 3)
            (BitVec.ofBool (p2.inverted 3) ++ ~~~(p1.field 3 4)) { aaa := p2.field 0 3, z := p2.getLsbD 7 }
            (p2.field 5 2) (p2.getLsbD 4) (BitVec.ofBool (p0.inverted 6) ++ BitVec.ofBool (p0.inverted 5)) operand))
          .illegal := by
  have hbound : ¬(m ≠ .long64 ∧ p0.field 6 2 ≠ 0b11#2) := fun hn => hn.2 (h.notBound hn.1)
  have hprot : ¬(m = .prot32 ∧
      (p0.inverted 5 = true ∨ p0.inverted 4 = true ∨ p1.inverted 6 = true ∨ p2.inverted 3 = true)) := by
    rintro ⟨rfl, hh⟩; simp [hlow] at hh
  have hreal : ¬(m.isReal = true ∧
      (p0.inverted 5 = true ∨ p0.inverted 4 = true ∨ p1.inverted 6 = true ∨ p2.inverted 3 = true)) := by
    rintro ⟨hm, hh⟩; have := hlow (by rintro rfl; cases hm); simp [this] at hh
  simp only [decodeEvex, if_neg hbound, h.map, h.w, h.pp, h.order, if_neg hprot, if_neg hreal]
  cases decodeModRm (p0.inverted 6) (p0.inverted 5) modrm t with
  | none => rfl
  | some operand => cases evexIllegal p0 p1 p2 (modrm.field 6 2 == 0b11#2) <;> rfl

end EvexRow

/-! ## The obligations on rows -/

/-- Settles O10: such bytes are a row, and R81 is the only thing that can stop it. -/
theorem evexIllegalExactly : Obligations.EvexIllegalExactly := by
  intro p0 p1 p2 op modrm rest hp0 hp1 hpp hop htrunc
  obtain ⟨o, ho⟩ := orderOf_isSome hop
  have hrow : EvexRow .long64 p0 p1 op o := ⟨fun hm => absurd rfl hm, hp0, hp1, hpp, ho⟩
  have hdec := (decode_evex .long64 _).trans
    (decodeEvex_of_low (p2 := p2) (modrm := modrm) (seg := none) (t := rest) hrow fun hm => absurd rfl hm)
  have hlegal := evexIllegal_eq_none_iff (p0 := p0) (p1 := p1) (p2 := p2) (regOperand := modrm.field 6 2 == 0b11#2)
  rw [beq_iff_eq] at hlegal
  cases hoperand : decodeModRm (p0.inverted 6) (p0.inverted 5) modrm rest with
  | none => exact absurd (hdec.trans (by rw [hoperand]; rfl)) htrunc
  | some operand =>
    rw [hoperand] at hdec
    cases hwhy : evexIllegal p0 p1 p2 (modrm.field 6 2 == 0b11#2) with
    | none =>
      rw [hwhy] at hdec hlegal
      exact (if_neg (hlegal.mp rfl)).mpr ⟨_, hdec⟩
    | some why =>
      rw [hwhy] at hdec hlegal
      exact (if_pos (not_not.mp (mt hlegal.mpr nofun))).mpr ⟨why, hdec⟩

/-- Settles O11: the row is that of `decodeVex_eq_instr` and `decodeEvex_eq_instr`. -/
theorem rowSelected : Obligations.RowSelected := by
  refine ⟨fun m b1 b2 op modrm rest i h => ?_, fun m p0 p1 p2 op modrm rest i h => ?_⟩
  · obtain ⟨_, _, _, _, _, o, operand, heq, ho, -, -, rfl⟩ := decodeVex_eq_instr ((decode_vex m _).symm.trans h)
    cases heq
    refine ⟨usesEvex_vexInstr .., ?_, ?_⟩
    · rw [vectorLength_vexInstr]; cases b2.getLsbD 2 <;> rfl
    · rw [orderOfInstr_vexInstr, orderOf_eq_some_iff.mp ho]; cases o <;> rfl
  · obtain ⟨_, _, _, _, _, _, o, operand, heq, ho, hoperand, hlegal, -, rfl⟩ :=
      decodeEvex_eq_instr ((decode_evex m _).symm.trans h)
    cases heq
    have hreg := decodeModRm_reg_iff hoperand
    have hll : p2.field 5 2 = 0b11#2 → (∃ rm, operand = .reg rm) ∧ p2.getLsbD 4 = true := by
      have := evexIllegal_eq_none_iff.mp hlegal
      rw [hreg]; simp_all
    refine ⟨usesEvex_evexRow .., ?_, ?_⟩
    · rw [vectorLength_evexRow _ _ _ _ _ _ hll]
      simp only [hreg, Byte.field]
    · rw [orderOfInstr_evexRow, orderOf_eq_some_iff.mp ho]; cases o <;> rfl

/-! ## The obligations on what is out of scope -/

theorem inverted_eq_true_iff {b : Byte} {i : Nat} : b.inverted i = true ↔ b.getLsbD i = false := by
  simp [Byte.inverted]

/-- Every other answer of the decoder differs, and this one stands behind the question for `Prot32`. -/
theorem decodeVex_highRegister {m : CpuMode} {seg : Option Seg} {bs : List Byte}
    (h : decodeVex m seg bs = .outOfScope .highRegister) : m = .prot32 := by
  unfold decodeVex at h
  grind only

/-- As `decodeVex_highRegister`. -/
theorem decodeEvex_highRegister {m : CpuMode} {seg : Option Seg} {bs : List Byte}
    (h : decodeEvex m seg bs = .outOfScope .highRegister) : m = .prot32 := by
  unfold decodeEvex at h
  grind only

/-- R83: extended register numbers are refused in `Prot32` only. -/
theorem decodeBody_highRegister {m : CpuMode} {seg : Option Seg} {bs : List Byte}
    (h : decodeBody m seg bs = .outOfScope .highRegister) : m = .prot32 := by
  cases bs with
  | nil => cases h
  | cons b t =>
    simp only [decodeBody] at h
    split at h
    · exact decodeVex_highRegister h
    split at h
    · exact decodeEvex_highRegister h
    · cases h

/-- What is refused is refused for its lead bytes or for what stands behind them (R82, R83). -/
theorem decode_eq_outOfScope {m : CpuMode} {bs : List Byte} {why : OutOfScope} (h : decode m bs = .outOfScope why) :
    leadOutOfScope (splitLead m bs).1 = some why ∨
      decodeBody m (leadSegment (splitLead m bs).1) (splitLead m bs).2 = .outOfScope why := by
  unfold decode at h
  split at h
  case h_1 hlead => cases h; exact .inl hlead
  case h_2 =>
    split at h
    case h_1 hbody => cases h; exact .inr hbody
    case h_2 | h_3 => cases h
    case h_4 => split at h <;> cases h

theorem leadOutOfScope_ne_highRegister (ls : List LeadByte) : leadOutOfScope ls ≠ some .highRegister := by
  unfold leadOutOfScope
  split_ifs <;> exact nofun

/-- Settles O58: the bytes are a row, and of the parts of the decoder only the two for rows answer `highRegister`. -/
theorem highRegisterRefused : Obligations.HighRegisterRefused := by
  refine ⟨fun m bs h => ?_, fun b1 b2 op modrm rest hles hmap hw hpp hop hhigh => ?_,
    fun p0 p1 p2 op modrm rest hbound hmap hw hpp hop hhigh => ?_⟩
  · obtain hlead | hbody := decode_eq_outOfScope h
    · exact absurd hlead (leadOutOfScope_ne_highRegister _)
    · exact decodeBody_highRegister hbody
  · obtain ⟨o, ho⟩ := orderOf_isSome hop
    exact (decode_vex ..).trans
      (decodeVex_of_high ⟨fun _ => hles, hmap, hw, hpp, ho⟩ (by simpa only [inverted_eq_true_iff] using hhigh))
  · obtain ⟨o, ho⟩ := orderOf_isSome hop
    exact (decode_evex ..).trans
      (decodeEvex_of_high ⟨fun _ => hbound, hmap, hw, hpp, ho⟩ (by simpa only [inverted_eq_true_iff] using hhigh))


/-- R82 for VEX bytes in `Long64`. -/
theorem decodeVex_of_not_row {seg : Option Seg} {b1 b2 op modrm : Byte} {t : List Byte}
    (h : b1.field 0 5 ≠ 0b00010#5 ∨ b2.getLsbD 7 = false ∨ b2.field 0 2 ≠ 0b01#2 ∨ orderOf op = none) :
    decodeVex .long64 seg (b1 :: b2 :: op :: modrm :: t) = .outOfScope .otherInstruction := by
  rw [decodeVex, if_neg (fun hm => hm.1 rfl)]
  by_cases hfields : b1.field 0 5 ≠ 0b00010#5 ∨ b2.getLsbD 7 = false ∨ b2.field 0 2 ≠ 0b01#2
  · exact if_pos hfields
  · have hop : orderOf op = none := by tauto
    rw [if_neg hfields, hop]

/-- R82 for EVEX bytes in `Long64`. -/
theorem decodeEvex_of_not_row {seg : Option Seg} {p0 p1 p2 op modrm : Byte} {t : List Byte}
    (h : p0.field 0 2 ≠ 0b10#2 ∨ p1.getLsbD 7 = false ∨ p1.field 0 2 ≠ 0b01#2 ∨ orderOf op = none) :
    decodeEvex .long64 seg (p0 :: p1 :: p2 :: op :: modrm :: t) = .outOfScope .otherInstruction := by
  rw [decodeEvex, if_neg (fun hm => hm.1 rfl)]
  by_cases hfields : p0.field 0 2 ≠ 0b10#2 ∨ p1.getLsbD 7 = false ∨ p1.field 0 2 ≠ 0b01#2
  · exact if_pos hfields
  · have hop : orderOf op = none := by tauto
    rw [if_neg hfields, hop]

/-- Settles O12: the first byte, the fields of R62 and R64, and the lead bytes are judged before anything else. -/
theorem outOfScopeRefused : Obligations.OutOfScopeRefused := by
  refine ⟨fun m b rest hlead hvex hevex => ?_, fun b1 b2 op modrm rest h => ?_, fun p0 p1 p2 op modrm rest h => ?_,
    fun m bs h => ?_, fun m bs h => ?_, fun b b1 b2 op modrm rest h => ⟨?_, ?_⟩⟩
  · exact (decode_of_leadByte_eq_none hlead rest).trans ((if_neg hvex).trans (if_neg hevex))
  · exact (decode_vex ..).trans (decodeVex_of_not_row (by rwa [orderOf_eq_none_iff]))
  · exact (decode_evex ..).trans (decodeEvex_of_not_row (by rwa [orderOf_eq_none_iff]))
  · simp [decode, leadOutOfScope, h]
  · simp only [decode, leadOutOfScope, if_pos h]
    split_ifs <;> exact ⟨_, rfl⟩
  · exact (decode_vex ..).trans (if_pos ⟨nofun, h⟩)
  · exact (decode_evex ..).trans (if_pos ⟨nofun, h⟩)

end Sys2Proof
end

section
/-! The decoder reads the bytes of the instruction and no others (30_encoding.md R79): each part of it answers alike on the
first bytes it reads, whatever follows them (`ReadsPrefix`). -/

namespace Sys2Proof

open Sys2Proof.Machine

/-! ## Reading the first bytes -/

/-- `f` answers on `bs` by its first `n` bytes: they are there, and `f` answers alike whatever follows them. -/
def ReadsPrefix {α : Type} (f : List Byte → α) (bs : List Byte) (n : Nat) : Prop :=
  n ≤ bs.length ∧ ∀ rest, f (bs.take n ++ rest) = f bs

section ReadsPrefix

variable {α β : Type} {f : List Byte → α} {g : List Byte → β} {b : Byte} {t : List Byte} {n : Nat}

theorem ReadsPrefix.cons (h : ReadsPrefix (fun u => f (b :: u)) t n) : ReadsPrefix f (b :: t) (n + 1) :=
  ⟨Nat.succ_le_succ h.1, h.2⟩

theorem ReadsPrefix.congr (h : ReadsPrefix f t n) (hg : ∀ u, f u = f t → g u = g t) : ReadsPrefix g t n :=
  ⟨h.1, fun rest => hg _ (h.2 rest)⟩

theorem ReadsPrefix.zero (h : ∀ u, f u = f t) : ReadsPrefix f t 0 := ⟨Nat.zero_le _, fun _ => h _⟩

end ReadsPrefix

/-! ## Displacement, SIB, ModRM -/

theorem decodeDisp_readsPrefix {mod : BitVec 2} {t : List Byte} {d : Disp} (h : decodeDisp mod t = some d) :
    ReadsPrefix (decodeDisp mod) t d.length := by
  unfold decodeDisp at h
  split at h
  · rename_i hmod
    split at h <;> cases h
    exact .cons (.zero fun u => by simp [decodeDisp, hmod])
  split at h
  · rename_i hmod
    split at h <;> cases h
    exact .cons (.cons (.cons (.cons (.zero fun u => by simp [decodeDisp, hmod]))))
  · rename_i h01 h10
    cases h
    exact .zero fun u => by simp [decodeDisp, h01, h10]

theorem decodeDisp32_readsPrefix {t : List Byte} {w : BitVec 32} (h : decodeDisp32 t = some w) :
    ReadsPrefix decodeDisp32 t 4 := by
  unfold decodeDisp32 at h
  split at h <;> cases h
  exact .cons (.cons (.cons (.cons (.zero fun u => rfl))))

theorem decodeSib_readsPrefix {mod : BitVec 2} {x b : Bool} {t : List Byte} {a : Addr}
    (h : decodeSib mod x b t = some a) : ReadsPrefix (decodeSib mod x b) t a.length := by
  cases t with
  | nil => cases h
  | cons sib t =>
    simp only [decodeSib] at h
    split at h
    · rename_i hbase
      obtain ⟨w, hw, rfl⟩ := Option.map_eq_some_iff.mp h
      exact .cons ((decodeDisp32_readsPrefix hw).congr fun u hu => by simp only [decodeSib, if_pos hbase, hu])
    · rename_i hbase
      obtain ⟨d, hd, rfl⟩ := Option.map_eq_some_iff.mp h
      rw [Addr.length, Nat.add_comm]
      exact .cons ((decodeDisp_readsPrefix hd).congr fun u hu => by simp only [decodeSib, if_neg hbase, hu])

/-- How many bytes after ModRM name the operand. -/
def RegOrMem.length : RegOrMem → Nat
  | .reg _ => 0
  | .mem a => a.length

theorem decodeModRm_readsPrefix {x b : Bool} {modrm : Byte} {t : List Byte} {operand : RegOrMem}
    (h : decodeModRm x b modrm t = some operand) : ReadsPrefix (decodeModRm x b modrm) t operand.length := by
  unfold decodeModRm at h
  split at h
  · rename_i hmod
    cases h
    exact .zero fun u => by simp only [decodeModRm, if_pos hmod]
  rename_i hmod
  split at h
  · rename_i hrm
    obtain ⟨a, ha, rfl⟩ := Option.map_eq_some_iff.mp h
    exact (decodeSib_readsPrefix ha).congr fun u hu => by simp only [decodeModRm, if_neg hmod, if_pos hrm, hu]
  rename_i hrm
  split at h
  · rename_i hrel
    obtain ⟨w, hw, rfl⟩ := Option.map_eq_some_iff.mp h
    exact (decodeDisp32_readsPrefix hw).congr fun u hu => by
      simp only [decodeModRm, if_neg hmod, if_neg hrm, if_pos hrel, hu]
  · rename_i hrel
    obtain ⟨d, hd, rfl⟩ := Option.map_eq_some_iff.mp h
    exact (decodeDisp_readsPrefix hd).congr fun u hu => by
      simp only [decodeModRm, if_neg hmod, if_neg hrm, if_neg hrel, hu]

/-! ## Operand lengths -/

theorem Disp.length_le (d : Disp) : d.length ≤ 4 := by cases d <;> simp [Disp.length]

theorem RegOrMem.length_le (operand : RegOrMem) : operand.length ≤ 5 := by
  cases operand with
  | reg => exact Nat.zero_le _
  | mem a =>
    cases a with
    | based _ d | sib _ _ _ d => have := d.length_le; simp only [RegOrMem.length, Addr.length]; omega
    | relative | sibNoBase => simp [RegOrMem.length, Addr.length]

@[simp] theorem vexOperandOf_length (b : Bool) (operand : RegOrMem) :
    (vexOperandOf b operand).length = operand.length := by
  cases operand <;> rfl

@[simp] theorem evexOperandOf_length (ll : BitVec 2) (b : Bool) (xb : BitVec 2) (operand : RegOrMem) :
    (evexOperandOf ll b xb operand).length = operand.length := by
  cases operand <;> cases b <;> rfl

/-! ## The rows -/

theorem decodeVex_readsPrefix {m : CpuMode} {seg : Option Seg} {bs : List Byte} {i : Instr}
    (h : decodeVex m seg bs = .instr i) :
    ∃ operand : RegOrMem, usesEvex i = false ∧ i.length = vexLength seg operand.length ∧
      ReadsPrefix (decodeVex m seg) bs (operand.length + 4) := by
  obtain ⟨b1, b2, op, modrm, t, o, operand, rfl, -, hoperand, -, rfl⟩ := decodeVex_eq_instr h
  exact ⟨operand, by simp, by simp, .cons (.cons (.cons (.cons
    ((decodeModRm_readsPrefix hoperand).congr fun u hu => by simp only [decodeVex, hu]))))⟩

theorem decodeEvex_readsPrefix {m : CpuMode} {seg : Option Seg} {bs : List Byte} {i : Instr}
    (h : decodeEvex m seg bs = .instr i) :
    ∃ operand : RegOrMem, usesEvex i = true ∧ i.length = evexLength seg operand.length ∧
      ReadsPrefix (decodeEvex m seg) bs (operand.length + 5) := by
  obtain ⟨p0, p1, p2, op, modrm, t, o, operand, rfl, -, hoperand, -, -, rfl⟩ := decodeEvex_eq_instr h
  exact ⟨operand, by simp, by simp, .cons (.cons (.cons (.cons (.cons
    ((decodeModRm_readsPrefix hoperand).congr fun u hu => by simp only [decodeEvex, hu])))))⟩

/-- Behind the lead bytes stand the `n` bytes of VEX or EVEX, opcode, ModRM, SIB and displacement (R79). -/
theorem decodeBody_readsPrefix {m : CpuMode} {seg : Option Seg} {bs : List Byte} {i : Instr}
    (h : decodeBody m seg bs = .instr i) :
    ∃ n, i.length = segLength seg + n ∧ (if usesEvex i then 6 else 5) ≤ n ∧ n ≤ (if usesEvex i then 11 else 10) ∧
      ReadsPrefix (decodeBody m seg) bs n := by
  cases bs with
  | nil => cases h
  | cons b t =>
    simp only [decodeBody] at h
    split at h
    · rename_i hb
      obtain ⟨operand, huses, hlen, hread⟩ := decodeVex_readsPrefix h
      have hle := operand.length_le
      refine ⟨operand.length + 4 + 1, ?_, ?_, ?_, .cons (hread.congr fun u hu => ?_)⟩
      · rw [hlen, vexLength]; omega
      · simp [huses]
      · simp [huses]; omega
      · simp only [decodeBody, if_pos hb, hu]
    split at h
    · rename_i hb' hb
      obtain ⟨operand, huses, hlen, hread⟩ := decodeEvex_readsPrefix h
      have hle := operand.length_le
      refine ⟨operand.length + 5 + 1, ?_, ?_, ?_, .cons (hread.congr fun u hu => ?_)⟩
      · rw [hlen, evexLength]; omega
      · simp [huses]
      · simp [huses]; omega
      · simp only [decodeBody, if_neg hb', if_pos hb, hu]
    · cases h

/-! ## The lead bytes -/

theorem splitLead_length (m : CpuMode) (bs : List Byte) :
    (splitLead m bs).1.length + (splitLead m bs).2.length = bs.length := by
  induction bs with
  | nil => rfl
  | cons b t ih =>
    cases hb : leadByte m b with
    | none => simp [splitLead, hb]
    | some l => simp only [splitLead, hb, List.length_cons]; omega

/-- The lead bytes are found again in a part that goes beyond them. -/
theorem splitLead_take_append {m : CpuMode} {bs : List Byte} {n : Nat} (hn : 0 < n) (hle : n ≤ (splitLead m bs).2.length)
    (rest : List Byte) :
    splitLead m (bs.take ((splitLead m bs).1.length + n) ++ rest) =
      ((splitLead m bs).1, (splitLead m bs).2.take n ++ rest) := by
  induction bs with
  | nil => simp [splitLead] at hle; omega
  | cons b t ih =>
    cases hb : leadByte m b with
    | none =>
      obtain ⟨n, rfl⟩ := Nat.exists_eq_succ_of_ne_zero hn.ne'
      simp [splitLead, hb]
    | some l =>
      simp only [splitLead, hb] at hle ⊢
      simp [Nat.succ_add, splitLead, hb, ih hle]

/-- What neither R83 nor R81 line 1 stops is a segment override or nothing (R61). -/
theorem segLength_leadSegment {ls : List LeadByte} (hscope : leadOutOfScope ls = none) (hlegal : leadIllegal ls = false) :
    segLength (leadSegment ls) = ls.length := by
  unfold leadOutOfScope at hscope
  split_ifs at hscope with haddr hcount
  have hseg : ∀ l ∈ ls, ∃ s, l = .segment s := by
    intro l hl
    cases l <;> simp_all [leadIllegal]
  have hall : ls.countP LeadByte.isLegacy = ls.length := List.countP_eq_length.mpr fun l hl => by
    obtain ⟨s, rfl⟩ := hseg l hl; rfl
  match ls with
  | [] => rfl
  | [l] => obtain ⟨s, rfl⟩ := hseg l (by simp); rfl
  | _ :: _ :: _ => rw [hall] at hcount; simp at hcount

/-- Settles O8: behind the lead bytes `decodeBody` reads what R79 counts, and the lead bytes are the override. -/
theorem decodeLength : Obligations.DecodeLength := by
  intro m bs i h
  obtain ⟨hscope, hlegal, hbody⟩ := decode_eq_instr h
  obtain ⟨n, hlen, hmin, hmax, hle, hread⟩ := decodeBody_readsPrefix hbody
  rw [segLength_leadSegment hscope hlegal] at hlen
  have hpos : 0 < n := by split at hmin <;> omega
  have hsplit := splitLead_length m bs
  refine ⟨by omega, fun rest => ?_, by omega, by omega⟩
  rw [hlen]
  simpa only [decode, splitLead_take_append hpos hle, hread] using h

end Sys2Proof
end

section
/-! The decoder reads back what the encoder writes (30_encoding.md R61 to R76): first the fields of each encoded byte, then
ModRM, SIB and displacement, then the rows, and at last what a byte before them does (R81 line 1). -/

namespace Sys2Proof

open Sys2Proof.Machine

/-! ## The fields of the encoded bytes -/

section ModRm

variable (mod : BitVec 2) (reg rm : BitVec 3)

@[simp] theorem modrmByte_mod : (modrmByte mod reg rm).field 6 2 = mod := by revert mod reg rm; decide
@[simp] theorem modrmByte_reg : (modrmByte mod reg rm).field 3 3 = reg := by revert mod reg rm; decide
@[simp] theorem modrmByte_rm : (modrmByte mod reg rm).field 0 3 = rm := by revert mod reg rm; decide

end ModRm

theorem vexByte1_fields (r x b : Bool) : (vexByte1 r x b).inverted 7 = r ∧ (vexByte1 r x b).inverted 6 = x ∧
    (vexByte1 r x b).inverted 5 = b ∧ (vexByte1 r x b).field 0 5 = 0b00010#5 := by
  revert r x b; decide

theorem vexByte2_fields (src2 : BitVec 4) (l : Bool) : (vexByte2 src2 l).getLsbD 7 = true ∧
    ~~~((vexByte2 src2 l).field 3 4) = src2 ∧ (vexByte2 src2 l).inverted 6 = src2.msb ∧
    (vexByte2 src2 l).getLsbD 2 = l ∧ (vexByte2 src2 l).field 0 2 = 0b01#2 := by
  revert src2 l; decide

theorem evexP0_fields (dest : BitVec 5) (x b : Bool) : (evexP0 dest x b).inverted 7 = dest.getLsbD 3 ∧
    (evexP0 dest x b).inverted 6 = x ∧ (evexP0 dest x b).inverted 5 = b ∧
    (evexP0 dest x b).inverted 4 = dest.getLsbD 4 ∧ (evexP0 dest x b).field 2 2 = 0b00#2 ∧
    (evexP0 dest x b).field 0 2 = 0b10#2 := by
  revert dest x b; decide

theorem evexP1_fields (src2 : BitVec 5) : (evexP1 src2).getLsbD 7 = true ∧
    ~~~((evexP1 src2).field 3 4) = src2.extractLsb' 0 4 ∧ (evexP1 src2).inverted 6 = src2.getLsbD 3 ∧
    (evexP1 src2).getLsbD 2 = true ∧ (evexP1 src2).field 0 2 = 0b01#2 := by
  revert src2; decide

theorem evexP2_fields (src2 : BitVec 5) (k : WriteMask) (ll : BitVec 2) (b : Bool) :
    (evexP2 src2 k ll b).getLsbD 7 = k.z ∧ (evexP2 src2 k ll b).field 5 2 = ll ∧
    (evexP2 src2 k ll b).getLsbD 4 = b ∧ (evexP2 src2 k ll b).inverted 3 = src2.getLsbD 4 ∧
    (evexP2 src2 k ll b).field 0 3 = k.aaa := by
  obtain ⟨aaa, z⟩ := k
  unfold evexP2
  generalize src2.getLsbD 4 = v'
  revert aaa z ll b v'
  decide

/-- The converse of `inverted_of_field_eq`. -/
theorem field_eq_of_inverted {b : Byte} (h7 : b.inverted 7 = false) (h6 : b.inverted 6 = false) :
    b.field 6 2 = 0b11#2 := by
  revert b; decide

/-! ## Register numbers -/

@[simp] theorem extend_low3 (r : BitVec 4) : extend r.msb (low3 r) = r := by revert r; decide

theorem low3_eq_setWidth (r : BitVec 4) : low3 r = r.setWidth 3 := by revert r; decide

theorem evexReg_dest (r : BitVec 5) :
    BitVec.ofBool (r.getLsbD 4) ++ BitVec.ofBool (r.getLsbD 3) ++ r.extractLsb' 0 3 = r := by revert r; decide

theorem evexReg_src2 (r : BitVec 5) : BitVec.ofBool (r.getLsbD 4) ++ r.extractLsb' 0 4 = r := by revert r; decide

theorem bits_of_toNat_lt {r : BitVec 5} (h : r.toNat < 8) : r.getLsbD 4 = false ∧ r.getLsbD 3 = false := by
  revert r; decide

/-! ## Displacement, SIB, ModRM -/

theorem le32_le32Bytes (w : BitVec 32) :
    le32 (w.extractLsb' 0 8) (w.extractLsb' 8 8) (w.extractLsb' 16 8) (w.extractLsb' 24 8) = w := by
  unfold le32; grind

theorem decodeDisp32_le32Bytes (w : BitVec 32) (rest : List Byte) : decodeDisp32 (le32Bytes w ++ rest) = some w :=
  congrArg some (le32_le32Bytes w)

theorem decodeDisp_bytes (d : Disp) (rest : List Byte) : decodeDisp d.mod (d.bytes ++ rest) = some d := by
  cases d with
  | none | d8 => rfl
  | d32 w => exact congrArg (some ∘ Disp.d32) (le32_le32Bytes w)

theorem disp_mod_ne (d : Disp) : d.mod ≠ 0b11#2 := by cases d <;> simp [Disp.mod]

/-- A displacement with `mod = 00` is none, so its base is not 101 (R76). -/
theorem not_noBase_of_allowedWith {d : Disp} {base : BitVec 4} (h : d.allowedWith base = true) :
    ¬(d.mod = 0b00#2 ∧ low3 base = 0b101#3) := by
  rintro ⟨hmod, hbase⟩
  cases d with
  | none => simp [Disp.allowedWith, ← low3_eq_setWidth, hbase] at h
  | d8 | d32 => cases hmod

/-- ModRM, SIB and displacement of an address are read back (R76). -/
theorem decodeModRm_addr_bytes {a : Addr} (h : a.wf = true) (reg : BitVec 3) (rest : List Byte) :
    ∃ modrm t, a.bytes reg ++ rest = modrm :: t ∧ modrm.field 3 3 = reg ∧
      decodeModRm a.xBit a.bBit modrm t = some (.mem a) := by
  cases a with
  | based base d =>
    simp only [Addr.wf, ← low3_eq_setWidth, Bool.and_eq_true, bne_iff_ne] at h
    obtain ⟨hsib, hdisp⟩ := h
    exact ⟨_, _, rfl, modrmByte_reg ..,
      by simp [decodeModRm, disp_mod_ne, hsib, not_noBase_of_allowedWith hdisp, decodeDisp_bytes, Addr.bBit]⟩
  | relative w =>
    exact ⟨_, _, rfl, modrmByte_reg .., by simp [decodeModRm, decodeDisp32_le32Bytes]⟩
  | sib scale index base d =>
    exact ⟨_, _, rfl, modrmByte_reg ..,
      by simp [decodeModRm, decodeSib, disp_mod_ne, not_noBase_of_allowedWith h, decodeDisp_bytes, Addr.xBit, Addr.bBit]⟩
  | sibNoBase scale index w =>
    exact ⟨_, _, rfl, modrmByte_reg ..,
      by simp [decodeModRm, decodeSib, decodeDisp32_le32Bytes, Addr.xBit]⟩

/-- Outside `Long64` an address needs no extension bits (R83). -/
theorem addr_bits_of_wfIn {m : CpuMode} {a : Addr} (h : a.wfIn m = true) (hm : m ≠ .long64) :
    a.xBit = false ∧ a.bBit = false := by
  have hlow : a.lowRegs = true := by simp_all [Addr.wfIn]
  cases a <;> simp_all [Addr.lowRegs, Addr.xBit, Addr.bBit]

theorem decodeModRm_register (x b : Bool) (reg rm : BitVec 3) (t : List Byte) :
    decodeModRm x b (modrmByte 0b11#2 reg rm) t = some (.reg rm) := by
  simp [decodeModRm]

/-! ## The rows -/

theorem orderOf_opcodeByte (o : FmaOrder) : orderOf (opcodeByte o) = some o := orderOf_eq_some_iff.mpr rfl

/-- The bytes of a VEX form without an override. -/
theorem encodeVex_layout {m : CpuMode} (o : FmaOrder) (l : Bool) (dest src2 : BitVec 4) {src3 : VexOperand}
    (h : src3.wfIn m = true) (rest : List Byte) :
    ∃ (x b : Bool) (modrm : Byte) (t : List Byte) (operand : RegOrMem),
      encodeVex o l none dest src2 src3 ++ rest =
        0xC4#8 :: vexByte1 dest.msb x b :: vexByte2 src2 l :: opcodeByte o :: modrm :: t ∧
      modrm.field 3 3 = low3 dest ∧ decodeModRm x b modrm t = some operand ∧ vexOperandOf b operand = src3 ∧
      (m ≠ .long64 → x = false ∧ b = false) := by
  cases src3 with
  | reg r =>
    refine ⟨false, r.msb, _, rest, _, rfl, modrmByte_reg .., decodeModRm_register .., ?_, fun hm => ⟨rfl, ?_⟩⟩
    · simp [vexOperandOf]
    · simpa [VexOperand.wfIn, vexRegIn, hm] using h
  | mem a =>
    have hwf : a.wf = true := (Bool.and_eq_true_iff.mp h).1
    obtain ⟨modrm, t, hbytes, hreg, hoperand⟩ := decodeModRm_addr_bytes hwf (low3 dest) rest
    exact ⟨_, _, modrm, t, _, by simp [encodeVex, segBytes, hbytes], hreg, hoperand, rfl, addr_bits_of_wfIn h⟩

theorem decodeBody_encodeVex {m : CpuMode} {dest src2 : BitVec 4} {src3 : VexOperand} (o : FmaOrder) (l : Bool)
    (seg : Option Seg) (h : vexWf m dest src2 src3 = true) (rest : List Byte) :
    decodeBody m seg (encodeVex o l none dest src2 src3 ++ rest) = .instr (vexInstr o l seg dest src2 src3) := by
  simp only [vexWf, Bool.and_eq_true] at h
  obtain ⟨⟨hdest, hsrc2⟩, hsrc3⟩ := h
  obtain ⟨x, b, modrm, t, operand, hbytes, hreg, hoperand, rfl, hext⟩ := encodeVex_layout o l dest src2 hsrc3 rest
  obtain ⟨hr, hx, hb, hmap⟩ := vexByte1_fields dest.msb x b
  obtain ⟨hw, hvvvv, htop, hl, hpp⟩ := vexByte2_fields src2 l
  have hrow : VexRow m (vexByte1 dest.msb x b) (vexByte2 src2 l) (opcodeByte o) o :=
    { notLes := fun hm => field_eq_of_inverted (hr.trans (by simpa [vexRegIn, hm] using hdest)) (hx.trans (hext hm).1)
      map := hmap, w := hw, pp := hpp, order := orderOf_opcodeByte o }
  have hlow (hm : m ≠ .long64) : (vexByte1 dest.msb x b).inverted 5 = false ∧ (vexByte2 src2 l).inverted 6 = false :=
    ⟨hb.trans (hext hm).2, htop.trans (by simpa [vexRegIn, hm] using hsrc2)⟩
  have hdec := decodeVex_of_operand (seg := seg) (modrm := modrm) (t := t) hrow hlow (by rw [hx, hb]; exact hoperand)
  rw [hbytes]
  refine hdec.trans ?_
  rw [hr, hb, hreg, hvvvv, hl, extend_low3]

/-- EVEX bytes whose ModRM, SIB and displacement name `operand`. -/
theorem decodeBody_evexBytes {m : CpuMode} {dest src2 : BitVec 5} {k : WriteMask} {ll : BitVec 2} {x b bc : Bool}
    {modrm : Byte} {t : List Byte} {operand : RegOrMem} (o : FmaOrder) (seg : Option Seg)
    (hdest : evexRegIn m dest = true) (hsrc2 : evexRegIn m src2 = true) (hk : k.wf = true)
    (hreg : modrm.field 3 3 = dest.extractLsb' 0 3) (hoperand : decodeModRm x b modrm t = some operand)
    (hext : m ≠ .long64 → x = false ∧ b = false) (hll : ll = 0b11#2 → modrm.field 6 2 = 0b11#2 ∧ bc = true) :
    decodeBody m seg
        (0x62#8 :: evexP0 dest x b :: evexP1 src2 :: evexP2 src2 k ll bc :: opcodeByte o :: modrm :: t) =
      .instr (evexRow o seg dest src2 k ll bc (BitVec.ofBool x ++ BitVec.ofBool b) operand) := by
  obtain ⟨hr, hx, hb, hr', hreserved, hmap⟩ := evexP0_fields dest x b
  obtain ⟨hw, hvvvv, htop, hfixed, hpp⟩ := evexP1_fields src2
  obtain ⟨hz, hl, hbc, hv', haaa⟩ := evexP2_fields src2 k ll bc
  have hdestBits (hm : m ≠ .long64) := bits_of_toNat_lt (r := dest) (by simpa [evexRegIn, hm] using hdest)
  have hsrc2Bits (hm : m ≠ .long64) := bits_of_toNat_lt (r := src2) (by simpa [evexRegIn, hm] using hsrc2)
  have hrow : EvexRow m (evexP0 dest x b) (evexP1 src2) (opcodeByte o) o :=
    { notBound := fun hm => field_eq_of_inverted (hr.trans (hdestBits hm).2) (hx.trans (hext hm).1)
      map := hmap, w := hw, pp := hpp, order := orderOf_opcodeByte o }
  have hlegal : evexIllegal (evexP0 dest x b) (evexP1 src2) (evexP2 src2 k ll bc) (modrm.field 6 2 == 0b11#2) = none := by
    rw [evexIllegal_eq_none_iff, hreserved, hfixed, hl, hbc, hz, haaa]
    have hmask : ¬(k.z = true ∧ k.aaa = 0#3) := by simpa [WriteMask.wf, imp_iff_not_or] using hk
    simpa [hmask] using hll
  have hdec := decodeEvex_of_low (seg := seg) (modrm := modrm) (t := t) (p2 := evexP2 src2 k ll bc) hrow fun hm =>
    ⟨hb.trans (hext hm).2, hr'.trans (hdestBits hm).1, htop.trans (hsrc2Bits hm).2, hv'.trans (hsrc2Bits hm).1⟩
  refine hdec.trans ?_
  rw [hx, hb, hoperand, Option.elim_some, hlegal, Option.elim_none, hr, hr', hreg, hvvvv, hv', haaa, hz, hl, hbc,
    evexReg_dest, evexReg_src2]

theorem decodeBody_encodeEvexReg {m : CpuMode} {dest src2 r : BitVec 5} {k : WriteMask} {ll : BitVec 2} {b : Bool}
    (o : FmaOrder) (seg : Option Seg) (hdest : evexRegIn m dest = true) (hsrc2 : evexRegIn m src2 = true)
    (hk : k.wf = true) (hr : evexRegIn m r = true) (hll : ll = 0b11#2 → b = true) (rest : List Byte) :
    decodeBody m seg (encodeEvexReg o none dest src2 k ll b r ++ rest) =
      .instr (evexRow o seg dest src2 k ll b (BitVec.ofBool (r.getLsbD 4) ++ BitVec.ofBool (r.getLsbD 3))
        (.reg (r.extractLsb' 0 3))) :=
  decodeBody_evexBytes o seg hdest hsrc2 hk (modrmByte_reg ..) (decodeModRm_register ..)
    (fun hm => bits_of_toNat_lt (by simpa [evexRegIn, hm] using hr)) fun h => ⟨modrmByte_mod .., hll h⟩

theorem decodeBody_encodeEvexMem {m : CpuMode} {dest src2 : BitVec 5} {k : WriteMask} {ll : BitVec 2} {b : Bool}
    {a : Addr} (o : FmaOrder) (seg : Option Seg) (hdest : evexRegIn m dest = true) (hsrc2 : evexRegIn m src2 = true)
    (hk : k.wf = true) (ha : a.wfIn m = true) (hll : ll ≠ 0b11#2) (rest : List Byte) :
    decodeBody m seg (encodeEvexMem o none dest src2 k ll b a ++ rest) =
      .instr (evexRow o seg dest src2 k ll b (BitVec.ofBool a.xBit ++ BitVec.ofBool a.bBit) (.mem a)) := by
  have hwf : a.wf = true := (Bool.and_eq_true_iff.mp ha).1
  obtain ⟨modrm, t, hbytes, hreg, hoperand⟩ := decodeModRm_addr_bytes hwf (dest.extractLsb' 0 3) rest
  simp only [encodeEvexMem, segBytes, List.append_assoc, hbytes]
  exact decodeBody_evexBytes o seg hdest hsrc2 hk hreg hoperand (addr_bits_of_wfIn ha) fun h => absurd h hll

theorem decodeBody_encodeEvex {m : CpuMode} {dest src2 : BitVec 5} {k : WriteMask} {src3 : EvexOperand} (o : FmaOrder)
    (l : Bool) (seg : Option Seg) (h : evexWf m dest src2 k (src3.wfIn m) = true) (rest : List Byte) :
    decodeBody m seg (encodeEvex o l none dest src2 k src3 ++ rest) = .instr (evexInstr o l seg dest src2 k src3) := by
  simp only [evexWf, Bool.and_eq_true] at h
  obtain ⟨⟨⟨hdest, hsrc2⟩, hk⟩, hsrc3⟩ := h
  have hll : ∀ l, 0b0#1 ++ BitVec.ofBool l ≠ 0b11#2 ∧ 0b0#1 ++ BitVec.ofBool l ≠ 0b10#2 ∧
    ((0b0#1 ++ BitVec.ofBool l == 0b01#2) = l) := by decide
  obtain ⟨h11, h10, h01⟩ := hll l
  cases src3 with
  | reg r =>
    refine (decodeBody_encodeEvexReg o seg hdest hsrc2 hk hsrc3 (fun h => absurd h h11) rest).trans ?_
    simp only [evexRow, if_neg h10, h01, evexReg_dest]
  | mem a =>
    refine (decodeBody_encodeEvexMem o seg hdest hsrc2 hk hsrc3 h11 rest).trans ?_
    simp only [evexRow, if_neg h10, h01]
  | bcst a =>
    refine (decodeBody_encodeEvexMem o seg hdest hsrc2 hk hsrc3 h11 rest).trans ?_
    simp only [evexRow, if_neg h10, h01]

theorem decodeBody_encodeEvex512 {m : CpuMode} {dest src2 : BitVec 5} {k : WriteMask} {src3 : EvexOperandEr}
    (o : FmaOrder) (seg : Option Seg) (h : evexWf m dest src2 k (src3.wfIn m) = true) (rest : List Byte) :
    decodeBody m seg (encodeEvex512 o none dest src2 k src3 ++ rest) = .instr (evexInstr512 o seg dest src2 k src3) := by
  simp only [evexWf, Bool.and_eq_true] at h
  obtain ⟨⟨⟨hdest, hsrc2⟩, hk⟩, hsrc3⟩ := h
  cases src3 with
  | reg r =>
    refine (decodeBody_encodeEvexReg o seg hdest hsrc2 hk hsrc3 (by decide) rest).trans ?_
    simp only [evexRow, evexReg_dest, if_true]
  | regEr rc r =>
    refine (decodeBody_encodeEvexReg o seg hdest hsrc2 hk hsrc3 (fun _ => rfl) rest).trans ?_
    simp only [evexRow, evexReg_dest]
  | mem a => exact decodeBody_encodeEvexMem o seg hdest hsrc2 hk hsrc3 (by decide) rest
  | bcst a => exact decodeBody_encodeEvexMem o seg hdest hsrc2 hk hsrc3 (by decide) rest

/-! ## The whole instruction -/

section Encode

variable (o : FmaOrder) (l : Bool) (seg : Option Seg)

theorem encode_vexInstr (dest src2 : BitVec 4) (src3 : VexOperand) :
    encode (vexInstr o l seg dest src2 src3) = encodeVex o l seg dest src2 src3 := by
  cases o <;> cases l <;> rfl

theorem encodeVex_eq_cons (dest src2 : BitVec 4) (src3 : VexOperand) :
    ∃ t, ∀ seg, encodeVex o l seg dest src2 src3 = segBytes seg ++ 0xC4#8 :: t := by
  cases src3 <;> exact ⟨_, fun _ => rfl⟩

variable (dest src2 : BitVec 5) (k : WriteMask)

theorem encode_evexInstr (src3 : EvexOperand) :
    encode (evexInstr o l seg dest src2 k src3) = encodeEvex o l seg dest src2 k src3 := by
  cases o <;> cases l <;> rfl

theorem encode_evexInstr512 (src3 : EvexOperandEr) :
    encode (evexInstr512 o seg dest src2 k src3) = encodeEvex512 o seg dest src2 k src3 := by
  cases o <;> rfl

theorem encodeEvexReg_eq_cons (ll : BitVec 2) (b : Bool) (r : BitVec 5) :
    ∃ t, ∀ seg, encodeEvexReg o seg dest src2 k ll b r = segBytes seg ++ 0x62#8 :: t := ⟨_, fun _ => rfl⟩

theorem encodeEvexMem_eq_cons (ll : BitVec 2) (b : Bool) (a : Addr) :
    ∃ t, ∀ seg, encodeEvexMem o seg dest src2 k ll b a = segBytes seg ++ 0x62#8 :: t :=
  ⟨_, fun _ => List.append_assoc ..⟩

theorem encodeEvex_eq_cons (src3 : EvexOperand) :
    ∃ t, ∀ seg, encodeEvex o l seg dest src2 k src3 = segBytes seg ++ 0x62#8 :: t := by
  cases src3 with
  | reg => exact encodeEvexReg_eq_cons ..
  | mem | bcst => exact encodeEvexMem_eq_cons ..

theorem encodeEvex512_eq_cons (src3 : EvexOperandEr) :
    ∃ t, ∀ seg, encodeEvex512 o seg dest src2 k src3 = segBytes seg ++ 0x62#8 :: t := by
  cases src3 with
  | reg | regEr => exact encodeEvexReg_eq_cons ..
  | mem | bcst => exact encodeEvexMem_eq_cons ..

end Encode

/-- A well-formed instruction is encoded as its override and then C4 or 62 and the bytes of its row, which are read back
whatever follows them. -/
theorem encode_layout {m : CpuMode} {i : Instr} (h : i.wf m = true) :
    ∃ seg b t, encode i = segBytes seg ++ b :: t ∧ (b = 0xC4#8 ∨ b = 0x62#8) ∧
      ∀ rest, decodeBody m seg (b :: t ++ rest) = .instr i := by
  induction i using forms_cases with
  | vex o l seg dest src2 src3 =>
    obtain ⟨t, ht⟩ := encodeVex_eq_cons o l dest src2 src3
    have hdec := decodeBody_encodeVex o l seg (wf_vexInstr .. ▸ h)
    rw [ht none] at hdec
    exact ⟨seg, _, t, by rw [encode_vexInstr, ht], .inl rfl, hdec⟩
  | evex o l seg dest src2 k src3 =>
    obtain ⟨t, ht⟩ := encodeEvex_eq_cons o l dest src2 k src3
    have hdec := decodeBody_encodeEvex o l seg (wf_evexInstr .. ▸ h)
    rw [ht none] at hdec
    exact ⟨seg, _, t, by rw [encode_evexInstr, ht], .inr rfl, hdec⟩
  | evex512 o seg dest src2 k src3 =>
    obtain ⟨t, ht⟩ := encodeEvex512_eq_cons o dest src2 k src3
    have hdec := decodeBody_encodeEvex512 o seg (wf_evexInstr512 .. ▸ h)
    rw [ht none] at hdec
    exact ⟨seg, _, t, by rw [encode_evexInstr512, ht], .inr rfl, hdec⟩

/-! ## A byte before the instruction -/

theorem leadByte_segByte (m : CpuMode) (s : Seg) : leadByte m s.byte = some (.segment s) := by
  cases s <;> rfl

theorem leadByte_row {b : Byte} (hb : b = 0xC4#8 ∨ b = 0x62#8) (m : CpuMode) : leadByte m b = none := by
  obtain rfl | rfl := hb
  · exact leadByte_vex m
  · exact leadByte_evex m

/-- R81 line 1. -/
theorem leadByte_illegalLegacy {b : Byte} (h : b = 0xF0 ∨ b = 0x66 ∨ b = 0xF2 ∨ b = 0xF3) (m : CpuMode) :
    leadByte m b = some .illegalLegacy := by
  obtain rfl | rfl | rfl | rfl := h <;> rfl

/-- R81 line 1: no other byte that may stand before a row has bits 7:4 equal to 4. -/
theorem leadByte_rex {b : Byte} (h : b.extractLsb' 4 4 = 4) : leadByte .long64 b = some .rex := by
  revert b; decide

/-- The lead bytes of an encoded row are its override. -/
theorem splitLead_segBytes {m : CpuMode} {b : Byte} (hb : leadByte m b = none) (seg : Option Seg) (t : List Byte) :
    splitLead m (segBytes seg ++ b :: t) = (seg.toList.map .segment, b :: t) := by
  cases seg <;> simp [segBytes, splitLead, leadByte_segByte, hb]

theorem leadSegment_segment (seg : Option Seg) : leadSegment (seg.toList.map .segment) = seg := by
  cases seg <;> rfl

/-- An illegal lead byte before an instruction makes it #UD (R81 line 1), unless R83 puts the lead bytes out of scope. -/
theorem decode_illegalLead {m : CpuMode} {bs : List Byte} {i : Instr} (hscope : leadOutOfScope (splitLead m bs).1 = none)
    (hillegal : leadIllegal (splitLead m bs).1 = true)
    (hbody : decodeBody m (leadSegment (splitLead m bs).1) (splitLead m bs).2 = .instr i) :
    decode m bs = .illegal .leadByte := by
  simp [decode, hscope, hillegal, hbody]

/-- Settles O9: the lead bytes are the byte and the override, and the row behind them is read back. -/
theorem leadByteIllegal : Obligations.LeadByteIllegal := by
  intro m i rest b hwf
  obtain ⟨seg, c, body, hbytes, hc, hbody⟩ := encode_layout hwf
  have hsplit {l : LeadByte} (hl : leadByte m b = some l) :
      splitLead m (b :: encode i ++ rest) = (l :: seg.toList.map .segment, c :: body ++ rest) := by
    simp [hbytes, splitLead, hl, splitLead_segBytes (leadByte_row hc m)]
  constructor
  · intro hb hhead
    have hseg : seg = none := by
      cases seg with
      | none => rfl
      | some s => cases s <;> simp [hbytes, segBytes, Seg.byte] at hhead
    have hlead := hsplit (leadByte_illegalLegacy hb m)
    subst hseg
    exact decode_illegalLead (by rw [hlead]; rfl) (by rw [hlead]; rfl) (by rw [hlead]; exact hbody rest)
  · rintro rfl hrex
    have hlead := hsplit (leadByte_rex hrex)
    refine decode_illegalLead (i := i) ?_ ?_ ?_ <;> rw [hlead]
    · cases seg <;> rfl
    · cases seg <;> rfl
    · rw [leadSegment, leadSegment_segment]
      · exact hbody rest
      · exact nofun

end Sys2Proof
end

section
/-! The effective address as an integer (30_encoding.md R76, R77, R78): the address expression is the 64-bit word of
`State.addressInt`, and the effective address its sum with the segment base modulo the size of the address space. -/

namespace Sys2Proof.Machine

open Sys2Proof

/-! ## The address expression -/

theorem ofInt_toNat (w : Word64) : BitVec.ofInt 64 w.toNat = w := by
  rw [BitVec.ofInt_natCast, BitVec.ofNat_toNat, BitVec.setWidth_eq]

theorem dispValue_eq_ofInt (n : Nat) (d : Disp) : dispValue n d = BitVec.ofInt 64 (dispInt n d) := by
  cases d with
  | none => rfl
  | d8 b => rw [dispInt, BitVec.ofInt_mul, BitVec.ofInt_natCast]; rfl
  | d32 w => rfl

theorem indexTerm_eq_ofInt (s : State) (scale : BitVec 2) (index : BitVec 4) :
    s.indexTerm scale index = BitVec.ofInt 64 (s.indexInt scale index) := by
  by_cases hi : index = 4#4
  · have hint : s.indexInt scale index = 0 := if_pos hi
    rw [hint]
    exact if_pos hi
  · have hint : s.indexInt scale index = ((s.readX index).toNat <<< scale.toNat : ℕ) :=
      (if_neg hi).trans (by rw [Nat.shiftLeft_eq, Nat.cast_mul, Nat.cast_pow, Nat.cast_ofNat])
    rw [hint, BitVec.ofInt_natCast]
    exact if_neg hi

theorem addressExpr_eq_ofInt (s : State) (len n : Nat) (a : Addr) :
    s.addressExpr len n a = BitVec.ofInt 64 (s.addressInt len n a) := by
  cases a with
  | based base d => rw [State.addressInt, BitVec.ofInt_add, ofInt_toNat, ← dispValue_eq_ofInt]; rfl
  | relative d =>
    by_cases hm : s.params.mode = .long64
    · simp only [State.addressExpr, State.addressInt, if_pos hm, State.nextPc, wrapAddress]
      rw [BitVec.ofInt_add, BitVec.ofInt_add, ofInt_toNat, BitVec.ofInt_natCast]; rfl
    · simp only [State.addressExpr, State.addressInt, if_neg hm, Int.zero_add]; rfl
  | sib scale index base d =>
    rw [State.addressInt, BitVec.ofInt_add, BitVec.ofInt_add, ofInt_toNat, ← indexTerm_eq_ofInt, ← dispValue_eq_ofInt]; rfl
  | sibNoBase scale index d => rw [State.addressInt, BitVec.ofInt_add, ← indexTerm_eq_ofInt]; rfl

/-! ## The effective address -/

theorem wrapAddress_toNat (m : CpuMode) (a : Word64) : (wrapAddress m a).toNat = a.toNat % addressSpace m := by
  cases m <;> simp [wrapAddress, addressSpace] <;> omega

theorem effectiveAddress_toNat (s : State) (seg : Option Seg) (a : Addr) (len n : Nat) :
    ((s.effectiveAddress seg a len n).toNat : ℤ) =
      (s.addressInt len n a + (s.segmentBase seg a).toNat) % (addressSpace s.params.mode : ℤ) := by
  rw [State.effectiveAddress, wrapAddress_toNat, BitVec.toNat_add, wrapAddress_toNat, addressExpr_eq_ofInt,
    BitVec.toNat_ofInt]
  cases s.params.mode <;> simp only [addressSpace] <;> omega

/-- Settles O39: in `Long64` only FS and GS have a base. -/
theorem effectiveAddressLong64 : Obligations.EffectiveAddressLong64 := by
  intro s seg a len n hm
  rw [effectiveAddress_toNat, hm]
  unfold State.segmentBase
  rw [if_pos hm]
  cases seg with
  | none => rfl
  | some g => cases g <;> rfl

/-- Settles O40: the base is that of the override, or of SS or DS by the base register. -/
theorem effectiveAddressProt32 : Obligations.EffectiveAddressProt32 := by
  intro s seg a len n hm defaultBase base
  have hbase : s.segmentBase seg a = base := by
    unfold State.segmentBase
    rw [if_neg (by simp [hm])]
    cases seg with
    | some g => cases g <;> rfl
    | none =>
      cases a with
      | based b | sib _ _ b =>
        simp only [base, defaultBase, Option.getD_none, Addr.stackBase]
        split_ifs <;> simp_all [segIndex, Vector.get]
      | relative | sibNoBase => rfl
  rw [effectiveAddress_toNat, hbase, hm]
  rfl

end Sys2Proof.Machine
end

section
/-! A step where no instruction stands at `pc` (10_state.md R30; 30_encoding.md R81, R82; 70_reset_and_hazards.md R195). -/

namespace Sys2Proof.Machine

open Sys2Proof

/-- Inside a text that ends within the address space the step decodes the bytes from `pc` on (R30, R35). -/
theorem step_of_inside {s : State} (hpc : s.PcInRange)
    (hend : s.text.base.toNat + s.text.bytes.length ≤ addressSpace s.params.mode) (hbase : s.text.base.toNat ≤ s.pc.toNat)
    (hlt : s.pc.toNat < s.text.base.toNat + s.text.bytes.length) :
    step s = andThen (fetched (decode s.params.mode (s.text.bytes.drop (s.pc.toNat - s.text.base.toNat)))) fun i =>
      andThen (exec i s) s.retire := by
  have hbytes : s.fetchBytes = .next (s.text.bytes.drop (s.pc.toNat - s.text.base.toNat)) := by
    rw [State.fetchBytes, pcNat_of_inRange hpc, if_neg (by omega), if_pos ⟨hbase, hlt⟩]
  rw [step, State.fetchInstr, hbytes, andThen_next]

/-- Outside such a text the step is refused; just past the text that is the normal end of the run (R195). -/
theorem step_of_outside {s : State} (hpc : s.PcInRange)
    (hend : s.text.base.toNat + s.text.bytes.length ≤ addressSpace s.params.mode)
    (hout : ¬(s.text.base.toNat ≤ s.pc.toNat ∧ s.pc.toNat < s.text.base.toNat + s.text.bytes.length)) :
    step s = .refused (if s.pc.toNat = (s.text.base.toNat + s.text.bytes.length) % addressSpace s.params.mode
      then .endOfText else .outsideText) := by
  have hbytes : s.fetchBytes = .refused (if s.pc.toNat =
      (s.text.base.toNat + s.text.bytes.length) % addressSpace s.params.mode then .endOfText else .outsideText) := by
    rw [State.fetchBytes, pcNat_of_inRange hpc, if_neg (by omega), if_neg hout]
    split <;> rfl
  rw [step, State.fetchInstr, hbytes, andThen_refused, andThen_refused]

/-- Settles O14: what is no instruction is not fetched, and the step ends as fetching does. -/
theorem stepWithoutInstruction : Obligations.StepWithoutInstruction := by
  intro s hpc hend
  refine ⟨fun hbase hlt => ?_, step_of_outside hpc hend⟩
  rw [step_of_inside hpc hend hbase hlt]
  refine ⟨fun why h => ?_, fun why h => ?_, fun h => ?_⟩ <;> rw [h] <;> rfl

end Sys2Proof.Machine
end

section
/-! The element operation apart from its rounding (40_fnmsub_lane.md R106 to R110, R115, R117): its cases, which
`ElementCase` lists once, the classes of operands they turn on, and the flags they detect. -/

namespace Sys2Proof.Machine

open Sys2Proof

/-! ## Classes of operands -/

theorem isFinite_iff {v : Elem} : isFinite v = true ↔ isNaN v = false ∧ isInf v = false := by
  by_cases hf : fracField v = 0 <;> simp [isFinite, isNaN, isInf, hf]

theorem isNaN_of_isQNaN {v : Elem} (h : isQNaN v = true) : isNaN v = true := by
  simp only [isQNaN, Bool.and_eq_true] at h
  exact h.1

theorem isSNaN_of_isQNaN {v : Elem} (h : isQNaN v = true) : isSNaN v = false := by
  simp only [isQNaN, Bool.and_eq_true] at h
  simp [isSNaN, h.2]

theorem isNaN_of_isDenormal {v : Elem} (h : isDenormal v = true) : isNaN v = false := by
  simp only [isDenormal, Bool.and_eq_true, beq_iff_eq] at h
  simp [isNaN, h.1]

theorem isInf_of_isDenormal {v : Elem} (h : isDenormal v = true) : isInf v = false := by
  simp only [isDenormal, Bool.and_eq_true, beq_iff_eq] at h
  simp [isInf, h.1]

@[simp] theorem signBit_zeroOf (neg : Bool) : signBit (zeroOf neg) = neg := by cases neg <;> rfl
@[simp] theorem isNaN_zeroOf (neg : Bool) : isNaN (zeroOf neg) = false := by cases neg <;> rfl
@[simp] theorem isSNaN_zeroOf (neg : Bool) : isSNaN (zeroOf neg) = false := by cases neg <;> rfl
@[simp] theorem isInf_zeroOf (neg : Bool) : isInf (zeroOf neg) = false := by cases neg <;> rfl
@[simp] theorem isDenormal_zeroOf (neg : Bool) : isDenormal (zeroOf neg) = false := by cases neg <;> rfl

theorem zeroOf_eq_ite (neg : Bool) : zeroOf neg = if neg then 0x8000000000000000 else 0 := by cases neg <;> rfl

/-! ## The pre-step of R110 -/

@[simp] theorem dazOperand_false (v : Elem) : dazOperand false v = v := rfl

theorem dazOperand_of_isDenormal {v : Elem} (h : isDenormal v = true) : dazOperand true v = zeroOf (signBit v) := by
  simp [dazOperand, h]

theorem dazOperand_of_not_isDenormal {v : Elem} (daz : Bool) (h : isDenormal v = false) : dazOperand daz v = v := by
  simp [dazOperand, h]

/-- A property that a denormal has like a zero of its sign is not changed by the pre-step. -/
theorem dazOperand_congr {α : Type} (f : Elem → α) (hf : ∀ v, isDenormal v = true → f (zeroOf (signBit v)) = f v)
    (daz : Bool) (v : Elem) : f (dazOperand daz v) = f v := by
  cases hd : isDenormal v with
  | false => rw [dazOperand_of_not_isDenormal daz hd]
  | true =>
    cases daz with
    | false => rfl
    | true => rw [dazOperand_of_isDenormal hd, hf v hd]

@[simp] theorem signBit_dazOperand (daz : Bool) (v : Elem) : signBit (dazOperand daz v) = signBit v :=
  dazOperand_congr _ (fun v _ => signBit_zeroOf (signBit v)) daz v

@[simp] theorem isNaN_dazOperand (daz : Bool) (v : Elem) : isNaN (dazOperand daz v) = isNaN v :=
  dazOperand_congr _ (fun v hv => by rw [isNaN_zeroOf, isNaN_of_isDenormal hv]) daz v

@[simp] theorem isSNaN_dazOperand (daz : Bool) (v : Elem) : isSNaN (dazOperand daz v) = isSNaN v :=
  dazOperand_congr _ (fun v hv => by rw [isSNaN_zeroOf, isSNaN, isNaN_of_isDenormal hv, Bool.false_and]) daz v

@[simp] theorem isInf_dazOperand (daz : Bool) (v : Elem) : isInf (dazOperand daz v) = isInf v :=
  dazOperand_congr _ (fun v hv => by rw [isInf_zeroOf, isInf_of_isDenormal hv]) daz v

@[simp] theorem isDenormal_dazOperand_true (v : Elem) : isDenormal (dazOperand true v) = false := by
  cases hd : isDenormal v with
  | false => rw [dazOperand_of_not_isDenormal true hd, hd]
  | true => rw [dazOperand_of_isDenormal hd, isDenormal_zeroOf]

/-! ## QNaNs (R108) -/

theorem expField_eq_2047_iff {v : Elem} : expField v = 2047 ↔ ∀ i, 52 ≤ i → i < 63 → v.getLsbD i = true := by
  rw [expField, show 2047 = (BitVec.allOnes 11).toNat by rfl, BitVec.toNat_inj]
  constructor
  · intro h i hlo hhi
    have hbit := congrArg (BitVec.getLsbD · (i - 52)) h
    have hi : i - 52 < 11 := by omega
    rwa [BitVec.getLsbD_extractLsb', BitVec.getLsbD_allOnes, decide_eq_true hi, Bool.true_and,
      show 52 + (i - 52) = i by omega] at hbit
  · intro h
    apply BitVec.eq_of_getLsbD_eq
    intro j hj
    rw [BitVec.getLsbD_extractLsb', BitVec.getLsbD_allOnes, decide_eq_true hj, Bool.true_and]
    exact h (52 + j) (by omega) (by omega)

theorem fracField_ne_zero_of_getLsbD {v : Elem} (h : v.getLsbD 51 = true) : fracField v ≠ 0 := by
  intro h0
  have hv : v.extractLsb' 0 52 = 0#52 := BitVec.eq_of_toNat_eq h0
  have hbit := congrArg (BitVec.getLsbD · 51) hv
  rw [BitVec.getLsbD_extractLsb', Nat.zero_add, h] at hbit
  cases hbit

/-- A QNaN is what has bits 62 to 51 set. -/
theorem isQNaN_iff {v : Elem} : isQNaN v = true ↔ ∀ i, 51 ≤ i → i < 63 → v.getLsbD i = true := by
  simp only [isQNaN, isNaN, Bool.and_eq_true, beq_iff_eq, bne_iff_ne, expField_eq_2047_iff]
  constructor
  · rintro ⟨⟨hexp, -⟩, h51⟩ i hlo hhi
    obtain rfl | hlt := hlo.eq_or_lt
    · exact h51
    · exact hexp i hlt hhi
  · intro h
    have h51 := h 51 le_rfl (by decide)
    exact ⟨⟨fun i hlo => h i (by omega), fracField_ne_zero_of_getLsbD h51⟩, h51⟩

theorem qnanOf_getLsbD (b : BitVec 52) {i : Nat} (hi : i < 64) :
    (qnanOf b).getLsbD i = if i < 51 then b.getLsbD i else if i < 63 then true else b.getLsbD 51 := by
  simp only [qnanOf, BitVec.getLsbD_append, BitVec.getLsbD_extractLsb']
  by_cases h51 : i < 51
  · simp [h51]
  by_cases h52 : i = 51
  · simp [h52]
  by_cases h63 : i < 63
  · have hexp : (0x7FF#11).getLsbD (i - 51 - 1) = true := by
      rw [show 0x7FF#11 = BitVec.allOnes 11 by rfl, BitVec.getLsbD_allOnes]
      simpa using by omega
    simp [h51, h63, hexp, show ¬ i - 51 < 1 by omega, show i - 51 - 1 < 11 by omega]
  · obtain rfl : i = 63 := by omega
    simp

theorem isQNaN_qnanOf (b : BitVec 52) : isQNaN (qnanOf b) = true :=
  isQNaN_iff.mpr fun i hlo hhi => by rw [qnanOf_getLsbD b (by omega), if_neg (by omega), if_pos hhi]

/-- Every QNaN has a sign and a payload. -/
theorem exists_qnanOf_eq {q : Elem} (h : isQNaN q = true) : ∃ b, qnanOf b = q := by
  have hb := fun i => BitVec.getLsbD_append (x := q.extractLsb' 63 1) (y := q.extractLsb' 0 51) (i := i)
  refine ⟨q.extractLsb' 63 1 ++ q.extractLsb' 0 51, BitVec.eq_of_getLsbD_eq fun i hi => ?_⟩
  rw [qnanOf_getLsbD _ hi]
  split_ifs with h51 h63
  · exact (hb i).trans (by simp [h51])
  · exact (isQNaN_iff.mp h i (by omega) h63).symm
  · obtain rfl : i = 63 := by omega
    exact (hb 51).trans (by simp)

theorem isQNaN_quiet {v : Elem} (h : isNaN v = true) : isQNaN (quiet v) = true := by
  simp only [isNaN, Bool.and_eq_true, beq_iff_eq, expField_eq_2047_iff] at h
  refine isQNaN_iff.mpr fun i hlo hhi => ?_
  rw [quiet, BitVec.getLsbD_or]
  obtain rfl | hlt := hlo.eq_or_lt
  · exact Bool.or_true _
  · rw [h.1 i hlt hhi, Bool.true_or]

theorem isQNaN_defaultNaN {x y z : Elem} (h : isNaN x = true ∨ isNaN y = true ∨ isNaN z = true) :
    isQNaN (defaultNaN x y z) = true := by
  unfold defaultNaN
  split_ifs with hx hy
  · exact isQNaN_quiet hx
  · exact isQNaN_quiet hy
  · exact isQNaN_quiet ((h.resolve_left hx).resolve_left hy)

/-! ## The cases -/

/-- An operand is a NaN. -/
def HasNaN (x y z : Elem) : Prop := isNaN x = true ∨ isNaN y = true ∨ isNaN z = true

/-- The operands make an invalid operation (R109): infinity times zero, or infinite terms of opposite signs. -/
def IsInvalid (x y z : Elem) : Prop :=
  (isInf x = true ∧ isZero y = true) ∨ (isZero x = true ∧ isInf y = true) ∨
    ((isInf x = true ∨ isInf y = true) ∧ isInf z = true ∧ (signBit x ^^ signBit y) ≠ signBit z)

/-- All three operands are finite. -/
structure AllFinite (x y z : Elem) : Prop where
  x : isFinite x = true
  y : isFinite y = true
  z : isFinite z = true

theorem invalidOperation_iff {x y z : Elem} : invalidOperation x y z = true ↔ IsInvalid x y z := by
  have hsign : (productSign x y != !signBit z) = true ↔ (signBit x ^^ signBit y) ≠ signBit z := by
    rw [productSign, bne_iff_ne, Ne, Bool.not_inj_iff]
  simp only [invalidOperation, IsInvalid, Bool.or_eq_true, Bool.and_eq_true, hsign, or_assoc, and_assoc]

theorem allFinite_of_not {x y z : Elem} (hn : ¬HasNaN x y z) (hxy : ¬(isInf x = true ∨ isInf y = true))
    (hz : isInf z = false) : AllFinite x y z := by
  simp only [HasNaN, not_or, Bool.not_eq_true] at hn hxy
  obtain ⟨hnx, hny, hnz⟩ := hn
  exact ⟨isFinite_iff.mpr ⟨hnx, hxy.1⟩, isFinite_iff.mpr ⟨hny, hxy.2⟩, isFinite_iff.mpr ⟨hnz, hz⟩⟩

theorem AllFinite.not_hasNaN {x y z : Elem} (h : AllFinite x y z) : ¬HasNaN x y z := by
  simp [HasNaN, (isFinite_iff.mp h.x).1, (isFinite_iff.mp h.y).1, (isFinite_iff.mp h.z).1]

theorem AllFinite.not_isInf {x y z : Elem} (h : AllFinite x y z) : ¬(isInf x = true ∨ isInf y = true) := by
  simp [(isFinite_iff.mp h.x).2, (isFinite_iff.mp h.y).2]

/-- The result of a non-zero exact value and a non-zero product, rounded once (R105). -/
def roundedResult (rm : Rounding) (ftz um : Bool) (x y z : Elem) : Elem × BitVec 6 :=
  roundResult rm ftz um (decide (exactValue x y z < 0)) (exactValue x y z).natAbs

/-- What the element operation answers, and when (40_fnmsub_lane.md section 3). -/
inductive ElementCase (nan : BitVec 52) (rm : Rounding) (ftz um : Bool) (x y z : Elem) : Elem × BitVec 6 → Prop
  | nan (hn : HasNaN x y z) :
      ElementCase nan rm ftz um x y z (qnanOf nan, if isSNaN x || isSNaN y || isSNaN z then flagIE else 0)
  | invalid (hn : ¬HasNaN x y z) (hi : IsInvalid x y z) : ElementCase nan rm ftz um x y z (indefinite, flagIE)
  | productInf (hn : ¬HasNaN x y z) (hi : ¬IsInvalid x y z) (hxy : isInf x = true ∨ isInf y = true) :
      ElementCase nan rm ftz um x y z (infOf (productSign x y), denormalFlag x y z)
  | addendInf (hn : ¬HasNaN x y z) (hi : ¬IsInvalid x y z) (hxy : ¬(isInf x = true ∨ isInf y = true))
      (hz : isInf z = true) : ElementCase nan rm ftz um x y z (infOf (!signBit z), denormalFlag x y z)
  | exactZero (hf : AllFinite x y z) (h0 : exactValue x y z = 0) :
      ElementCase nan rm ftz um x y z (zeroResult rm x y z, denormalFlag x y z)
  | zeroProduct (hf : AllFinite x y z) (h0 : exactValue x y z ≠ 0) (hp : isZero x = true ∨ isZero y = true) :
      ElementCase nan rm ftz um x y z (negated z, denormalFlag x y z)
  | rounded (hf : AllFinite x y z) (h0 : exactValue x y z ≠ 0) (hp : ¬(isZero x = true ∨ isZero y = true)) :
      ElementCase nan rm ftz um x y z
        ((roundedResult rm ftz um x y z).1, denormalFlag x y z ||| (roundedResult rm ftz um x y z).2)

theorem fnmsubCases_spec (nan : BitVec 52) (rm : Rounding) (ftz um : Bool) (x y z : Elem) :
    ElementCase nan rm ftz um x y z (fnmsubCases nan rm ftz um x y z) := by
  have hn : (isNaN x || isNaN y || isNaN z) = true ↔ HasNaN x y z := by simp [HasNaN, or_assoc]
  have hf := fun h hxy hz => allFinite_of_not (x := x) (y := y) (z := z) (mt hn.mpr h) (mt Bool.or_eq_true_iff.mpr hxy)
    (Bool.eq_false_of_not_eq_true hz)
  unfold fnmsubCases
  split
  next h => exact .nan (hn.mp h)
  next h =>
  split
  next hi => exact .invalid (mt hn.mpr h) (invalidOperation_iff.mp hi)
  next hi =>
  split
  next hxy => exact .productInf (mt hn.mpr h) (mt invalidOperation_iff.mpr hi) (Bool.or_eq_true_iff.mp hxy)
  next hxy =>
  split
  next hz => exact .addendInf (mt hn.mpr h) (mt invalidOperation_iff.mpr hi) (mt Bool.or_eq_true_iff.mpr hxy) hz
  next hz =>
  split
  next h0 => exact .exactZero (hf h hxy hz) h0
  next h0 =>
  split
  next hp => exact .zeroProduct (hf h hxy hz) h0 (Bool.or_eq_true_iff.mp hp)
  next hp => exact .rounded (hf h hxy hz) h0 (mt Bool.or_eq_true_iff.mpr hp)

/-! ## `fnmsub64` in terms of the cases -/

theorem fnmsub64_value (nan : BitVec 52) (rm : Rounding) (daz ftz : Bool) (masks : BitVec 6) (x y z : Elem) :
    (fnmsub64 nan rm daz ftz masks x y z).value = (fnmsubCases nan rm ftz (masks.getLsbD 4) (dazOperand daz x)
      (dazOperand daz y) (dazOperand daz z)).1 := rfl

theorem fnmsub64_flags (nan : BitVec 52) (rm : Rounding) (daz ftz : Bool) (masks : BitVec 6) (x y z : Elem) :
    (fnmsub64 nan rm daz ftz masks x y z).flags = (fnmsubCases nan rm ftz (masks.getLsbD 4) (dazOperand daz x)
      (dazOperand daz y) (dazOperand daz z)).2 := rfl

theorem fnmsub64_unmasked_iff {nan : BitVec 52} {rm : Rounding} {daz ftz : Bool} {masks : BitVec 6} {x y z : Elem} :
    (fnmsub64 nan rm daz ftz masks x y z).unmasked = true ↔
      (fnmsub64 nan rm daz ftz masks x y z).flags &&& ~~~masks ≠ 0 := bne_iff_ne

theorem AllFinite.not_isInvalid {x y z : Elem} (h : AllFinite x y z) : ¬IsInvalid x y z := by
  simp [IsInvalid, (isFinite_iff.mp h.x).2, (isFinite_iff.mp h.y).2]

theorem hasNaN_dazOperand {daz : Bool} {x y z : Elem} :
    HasNaN (dazOperand daz x) (dazOperand daz y) (dazOperand daz z) ↔ HasNaN x y z := by
  simp [HasNaN]

theorem isInvalid_dazOperand {daz : Bool} {x y z : Elem} :
    IsInvalid (dazOperand daz x) (dazOperand daz y) (dazOperand daz z) ↔
      (isInf x = true ∧ isZero (dazOperand daz y) = true) ∨ (isZero (dazOperand daz x) = true ∧ isInf y = true) ∨
        ((isInf x = true ∨ isInf y = true) ∧ isInf z = true ∧ (signBit x ^^ signBit y) ≠ signBit z) := by
  simp [IsInvalid]

/-! ## What the cases answer -/

theorem fnmsubCases_of_hasNaN {nan : BitVec 52} {rm : Rounding} {ftz um : Bool} {x y z : Elem} (h : HasNaN x y z) :
    fnmsubCases nan rm ftz um x y z = (qnanOf nan, if isSNaN x || isSNaN y || isSNaN z then flagIE else 0) := by
  have hspec := fnmsubCases_spec nan rm ftz um x y z
  generalize fnmsubCases nan rm ftz um x y z = r at hspec ⊢
  cases hspec with
  | nan => rfl
  | invalid hn | productInf hn | addendInf hn => exact absurd h hn
  | exactZero hf | zeroProduct hf | rounded hf => exact absurd h hf.not_hasNaN

theorem fnmsubCases_of_isInvalid {nan : BitVec 52} {rm : Rounding} {ftz um : Bool} {x y z : Elem}
    (hn : ¬HasNaN x y z) (h : IsInvalid x y z) : fnmsubCases nan rm ftz um x y z = (indefinite, flagIE) := by
  have hspec := fnmsubCases_spec nan rm ftz um x y z
  generalize fnmsubCases nan rm ftz um x y z = r at hspec ⊢
  cases hspec with
  | nan hnan => exact absurd hnan hn
  | invalid => rfl
  | productInf _ hi | addendInf _ hi => exact absurd h hi
  | exactZero hf | zeroProduct hf | rounded hf => exact absurd h hf.not_isInvalid

/-- Both terms that are infinite have one sign where the operation is valid. -/
theorem productSign_eq_of_not_isInvalid {x y z : Elem} (hi : ¬IsInvalid x y z) (hxy : isInf x = true ∨ isInf y = true)
    (hz : isInf z = true) : productSign x y = !signBit z := by
  have hsign : (signBit x ^^ signBit y) = signBit z := by
    by_contra hne
    exact hi (.inr (.inr ⟨hxy, hz, hne⟩))
  rw [productSign, hsign]

/-- R107, for an infinite product and for an infinite `z`. -/
theorem fnmsubCases_of_isInf {nan : BitVec 52} {rm : Rounding} {ftz um : Bool} {x y z : Elem}
    (hn : ¬HasNaN x y z) (hi : ¬IsInvalid x y z) :
    ((isInf x = true ∨ isInf y = true) →
      fnmsubCases nan rm ftz um x y z = (infOf (productSign x y), denormalFlag x y z)) ∧
    (isInf z = true → fnmsubCases nan rm ftz um x y z = (infOf (!signBit z), denormalFlag x y z)) := by
  have hspec := fnmsubCases_spec nan rm ftz um x y z
  generalize fnmsubCases nan rm ftz um x y z = r at hspec ⊢
  cases hspec with
  | nan hnan => exact absurd hnan hn
  | invalid _ hinv => exact absurd hinv hi
  | productInf _ _ hxy => exact ⟨fun _ => rfl, fun hz => by rw [productSign_eq_of_not_isInvalid hi hxy hz]⟩
  | addendInf _ _ hxy => exact ⟨fun h => absurd h hxy, fun _ => rfl⟩
  | exactZero hf | zeroProduct hf | rounded hf =>
    exact ⟨fun h => absurd h hf.not_isInf, fun h => by simp [(isFinite_iff.mp hf.z).2] at h⟩

/-! ## Flags -/

theorem denormalFlag_cases (x y z : Elem) : denormalFlag x y z = 0 ∨ denormalFlag x y z = flagDE := by
  unfold denormalFlag
  split
  · exact .inr rfl
  · exact .inl rfl

/-- The flags but Denormal. -/
theorem denormalFlag_and_not (x y z : Elem) : denormalFlag x y z &&& ~~~flagDE = 0 := by
  obtain h | h := denormalFlag_cases x y z <;> rw [h] <;> rfl

theorem denormalFlag_de {x y z : Elem} :
    (denormalFlag x y z).getLsbD 1 = true ↔ isDenormal x = true ∨ isDenormal y = true ∨ isDenormal z = true := by
  unfold denormalFlag
  split
  next h => simpa [flagDE, or_assoc] using h
  next h => simpa [or_assoc] using h

/-- The flags that the one rounding can detect (R111, R112, R113), `um` being the mask bit UM. -/
def RoundFlags (um : Bool) (f : BitVec 6) : Prop :=
  f ∈ [0, flagPE, flagOE ||| flagPE, flagUE ||| flagPE] ∨ um = false ∧ f = flagUE

theorem tinyResult_flags (rm : Rounding) (ftz um neg : Bool) (n : Nat) : RoundFlags um (tinyResult rm ftz um neg n).2 := by
  unfold tinyResult
  split
  · exact .inl (by simp)
  dsimp only
  split
  · cases um with
    | true => exact .inl (by decide)
    | false => exact .inr ⟨rfl, rfl⟩
  · exact .inl (by decide)

theorem roundResult_flags (rm : Rounding) (ftz um neg : Bool) (n : Nat) :
    RoundFlags um (roundResult rm ftz um neg n).2 := by
  unfold roundResult
  split
  · exact .inl (by simp)
  split
  · exact tinyResult_flags ..
  dsimp only
  split
  · exact .inl (by decide)
  · exact .inl (by decide)

/-- R115: Invalid stands alone, Denormal may stand with what the rounding detects. -/
theorem fnmsubCases_flags (nan : BitVec 52) (rm : Rounding) (ftz um : Bool) (x y z : Elem) :
    (fnmsubCases nan rm ftz um x y z).2 = flagIE ∨
      ∃ d ∈ [0, flagDE], ∃ f, RoundFlags um f ∧ (fnmsubCases nan rm ftz um x y z).2 = d ||| f := by
  have hspec := fnmsubCases_spec nan rm ftz um x y z
  generalize fnmsubCases nan rm ftz um x y z = r at hspec ⊢
  have hde : denormalFlag x y z ∈ [0, flagDE] := by simpa using denormalFlag_cases x y z
  have hnone : RoundFlags um 0 := .inl (by decide)
  cases hspec with
  | nan =>
    dsimp only
    split
    · exact .inl rfl
    · exact .inr ⟨0, by decide, 0, hnone, rfl⟩
  | invalid => exact .inl rfl
  | productInf | addendInf | exactZero | zeroProduct => exact .inr ⟨_, hde, 0, hnone, by simp⟩
  | rounded => exact .inr ⟨_, hde, _, roundResult_flags .., rfl⟩

/-- R110: Denormal is detected before the numerical result, unless a NaN or an invalid operation decides. -/
theorem fnmsubCases_de {nan : BitVec 52} {rm : Rounding} {ftz um : Bool} {x y z : Elem} :
    (fnmsubCases nan rm ftz um x y z).2.getLsbD 1 = true ↔
      (isDenormal x = true ∨ isDenormal y = true ∨ isDenormal z = true) ∧ ¬HasNaN x y z ∧ ¬IsInvalid x y z := by
  have hround : (roundedResult rm ftz um x y z).2.getLsbD 1 = false := by
    obtain hf | ⟨-, hf⟩ := roundResult_flags rm ftz um (decide (exactValue x y z < 0)) (exactValue x y z).natAbs
    · exact (show ∀ f ∈ [0, flagPE, flagOE ||| flagPE, flagUE ||| flagPE], f.getLsbD 1 = false by decide) _ hf
    · exact (congrArg (BitVec.getLsbD · 1) hf).trans (by decide)
  have hspec := fnmsubCases_spec nan rm ftz um x y z
  generalize fnmsubCases nan rm ftz um x y z = r at hspec ⊢
  cases hspec with
  | nan hn =>
    refine iff_of_false ?_ fun h => h.2.1 hn
    dsimp only
    split <;> decide
  | invalid _ hi => exact iff_of_false (by decide) fun h => h.2.2 hi
  | productInf hn hi | addendInf hn hi => exact denormalFlag_de.trans (and_iff_left ⟨hn, hi⟩).symm
  | exactZero hf | zeroProduct hf =>
    exact denormalFlag_de.trans (and_iff_left ⟨hf.not_hasNaN, hf.not_isInvalid⟩).symm
  | rounded hf =>
    rw [BitVec.getLsbD_or, hround, Bool.or_false]
    exact denormalFlag_de.trans (and_iff_left ⟨hf.not_hasNaN, hf.not_isInvalid⟩).symm

theorem unmaskedOf_flagIE : ∀ masks : BitVec 6, (unmaskedOf masks flagIE != 0) = !masks.getLsbD 0 := by
  decide

/-! ## The statements -/

/-- Settles O49: with an infinite term the operation is in one of the two cases of R107. -/
theorem infiniteResult : Obligations.InfiniteResult := by
  intro nan rm daz ftz masks x y z hx hy hz x' y' h1 h2 h3 r
  have hn : ¬HasNaN x' y' (dazOperand daz z) := by simp [x', y', HasNaN, hx, hy, hz]
  have hi : ¬IsInvalid x' y' (dazOperand daz z) := fun h => by
    obtain h | h | h := isInvalid_dazOperand.mp h
    exacts [h1 h, h2 h, h3 h]
  obtain ⟨hproduct, haddend⟩ := fnmsubCases_of_isInf (nan := nan) (rm := rm) (ftz := ftz) (um := masks.getLsbD 4) hn hi
  simp only [x', y', isInf_dazOperand] at hproduct haddend
  refine ⟨fun h => ?_, fun h => ?_⟩
  · simp only [r, fnmsub64_value, fnmsub64_flags, hproduct h, denormalFlag_and_not, productSign, signBit_dazOperand]
    cases signBit x ^^ signBit y <;> exact ⟨trivial, rfl⟩
  · simp only [r, fnmsub64_value, fnmsub64_flags, haddend h, denormalFlag_and_not, signBit_dazOperand]
    cases signBit z <;> exact ⟨trivial, rfl⟩

/-- Settles O50: without a NaN the case of R109, with a QNaN `z` that of R108. -/
theorem invalidOperation_holds : Obligations.InvalidOperation := by
  intro nan rm daz ftz masks x y z hx hy x' y' h r
  have hi : IsInvalid x' y' (dazOperand daz z) := isInvalid_dazOperand.mpr h
  refine ⟨fun hz => ?_, fun hz => ?_⟩
  · have hn : ¬HasNaN x' y' (dazOperand daz z) := by simp [x', y', HasNaN, hx, hy, hz]
    have hr : r = laneResult masks indefinite flagIE := by
      simp only [r, fnmsub64, fnmsubCases_of_isInvalid hn hi, x', y']
    rw [hr]
    exact ⟨rfl, rfl, unmaskedOf_flagIE masks⟩
  · have hn : HasNaN x' y' (dazOperand daz z) := hasNaN_dazOperand.mpr (.inr (.inr (isNaN_of_isQNaN hz)))
    have hs : ∀ v, isNaN v = false → isSNaN v = false := fun v hv => by rw [isSNaN, hv, Bool.false_and]
    rw [fnmsub64_value, fnmsub64_flags, fnmsubCases_of_hasNaN hn]
    exact ⟨isQNaN_qnanOf nan, by simp [x', y', hs x hx, hs y hy, isSNaN_of_isQNaN hz]⟩

/-- Settles O51: the case of R108, and every QNaN is some draw's. -/
theorem nanResult : Obligations.NanResult := by
  intro rm daz ftz masks x y z hn
  have hcase := fun nan => fnmsubCases_of_hasNaN (nan := nan) (rm := rm) (ftz := ftz) (um := masks.getLsbD 4)
    (hasNaN_dazOperand (daz := daz).mpr hn)
  have hvalue : ∀ nan, (fnmsub64 nan rm daz ftz masks x y z).value = qnanOf nan := fun nan => by
    rw [fnmsub64_value, hcase]
  have hflags : ∀ nan, (fnmsub64 nan rm daz ftz masks x y z).flags =
      if isSNaN x = true ∨ isSNaN y = true ∨ isSNaN z = true then flagIE else 0 := fun nan => by
    simp only [fnmsub64_flags, hcase, isSNaN_dazOperand, Bool.or_eq_true, or_assoc]
  have hreach : ∀ q, isQNaN q = true → ∃ nan, (fnmsub64 nan rm daz ftz masks x y z).value = q := fun q hq => by
    simpa only [hvalue] using exists_qnanOf_eq hq
  exact ⟨fun nan => ⟨hvalue nan ▸ isQNaN_qnanOf nan, hflags nan⟩, hreach, hreach _ (isQNaN_defaultNaN hn)⟩

/-- Settles O52: flushing is the pre-step, and the Denormal flag is that of R110. -/
theorem denormalOperand : Obligations.DenormalOperand := by
  intro nan rm ftz masks x y z flush
  have hflush : flush = dazOperand true := by
    funext v
    simp only [flush, dazOperand, Bool.true_and, zeroOf_eq_ite]
  refine ⟨?_, ?_, ?_⟩
  · rw [hflush]
    rfl
  · rw [fnmsub64_flags, ← Bool.not_eq_true, fnmsubCases_de]
    simp
  · rw [fnmsub64_flags, fnmsubCases_de]
    simp only [dazOperand_false, HasNaN, IsInvalid, not_or, Bool.not_eq_true, and_assoc]

/-- Settles O53, by the flags of the cases. -/
theorem flagSets : Obligations.FlagSets := by
  intro nan rm daz ftz masks x y z r listed
  have hrest : r.flags.getLsbD 2 = false ∧ (r.unmasked = true ↔ r.flags &&& ~~~masks ≠ 0) :=
    ⟨fnmsubCases_ze .., fnmsub64_unmasked_iff⟩
  have hlisted : ∀ d ∈ [0, flagDE], ∀ f ∈ [0, flagPE, flagOE ||| flagPE, flagUE ||| flagPE], d ||| f ∈ listed := by decide
  obtain hf | ⟨d, hd, f, hf | ⟨hum, hf⟩, hr⟩ := fnmsubCases_flags nan rm ftz (masks.getLsbD 4) (dazOperand daz x)
    (dazOperand daz y) (dazOperand daz z)
  · have hmem : r.flags ∈ listed := (congrArg (· ∈ listed) hf).mpr (by decide)
    exact ⟨fun _ => hmem, fun _ => List.mem_append_left _ hmem, hrest⟩
  · have hmem : r.flags ∈ listed := (congrArg (· ∈ listed) hr).mpr (hlisted d hd f hf)
    exact ⟨fun _ => hmem, fun _ => List.mem_append_left _ hmem, hrest⟩
  · have hmem : r.flags ∈ [flagUE, flagDE ||| flagUE] := by
      rw [show r.flags = d ||| flagUE from hf ▸ hr]
      exact (show ∀ d ∈ [0, flagDE], d ||| flagUE ∈ [flagUE, flagDE ||| flagUE] by decide) d hd
    exact ⟨fun h => absurd (hum.symm.trans h) Bool.false_ne_true, fun _ => List.mem_append_right _ hmem, hrest⟩

/-! ## Swapping the multiplicands -/

theorem productSign_comm (x y : Elem) : productSign x y = productSign y x := by
  rw [productSign, productSign, Bool.xor_comm]

theorem exactValue_comm (x y z : Elem) : exactValue x y z = exactValue y x z := by
  rw [exactValue, exactValue, productSign_comm x y, productUnits, productUnits, Nat.mul_comm (significand x),
    Nat.add_comm (scaleField x)]

theorem invalidOperation_comm (x y z : Elem) : invalidOperation x y z = invalidOperation y x z := by
  rw [Bool.eq_iff_iff, invalidOperation_iff, invalidOperation_iff, IsInvalid, IsInvalid, Bool.xor_comm (signBit x)]
  tauto

theorem fnmsubCases_comm (nan : BitVec 52) (rm : Rounding) (ftz um : Bool) (x y z : Elem) :
    fnmsubCases nan rm ftz um x y z = fnmsubCases nan rm ftz um y x z := by
  simp only [fnmsubCases, zeroResult, denormalFlag, productSign_comm x y, exactValue_comm x y, invalidOperation_comm x y,
    Bool.or_comm (isNaN x), Bool.or_comm (isSNaN x), Bool.or_comm (isInf x), Bool.or_comm (isZero x),
    Bool.or_comm (isDenormal x)]

/-- Settles O54: the product and every test of the multiplicands are symmetric. -/
theorem commutes : Obligations.Commutes := by
  intro nan rm daz ftz masks x y z _ _
  rw [fnmsub64, fnmsub64, fnmsubCases_comm]

end Sys2Proof.Machine
end

section
/-! The forms in any instantiation of `fnmsub64` and `EA` (00_scope.md R7; 40_fnmsub_lane.md R116): a form whose checks pass
and whose operand is read completes with one result for each element. -/

namespace Sys2Proof.Machine

open Sys2Proof

/-- Settles O55, form by form. -/
theorem configurationDefault : Obligations.ConfigurationDefault :=
  ⟨exec_eq_execWith, fun s => by simp only [step, stepWith, exec_eq_execWith]⟩

/-- Settles O56: a form that completes leaves `State.completed` in every instantiation. -/
theorem anyConfigurationFrame : Obligations.AnyConfigurationFrame := by
  intro c i s t h
  obtain ⟨-, suppress, rs, hrs, rfl⟩ := execWith_eq_next h
  exact ⟨fun q hq => completed_readV_other _ _ _ _ _ hq, fun b hb => completed_readV_dest_upper (by omega),
    rfl, rfl, rfl, rfl, rfl, fun _ => rfl, completed_mxcsr_upper, fun _ _ hb => completed_mxcsr_sticky hb⟩

/-! ## The forms in terms of the templates -/

theorem execWith_vexInstr (c : Configuration) (o : FmaOrder) (l : Bool) (seg : Option Seg) (dest src2 : BitVec 4)
    (src3 : VexOperand) (s : State) :
    execWith c (vexInstr o l seg dest src2 src3) s = vexFnmsub c o (lanesOf l) seg dest src2 src3 s := by
  cases o <;> cases l <;> rfl

theorem execWith_evexInstr (c : Configuration) (o : FmaOrder) (l : Bool) (seg : Option Seg) (dest src2 : BitVec 5)
    (k : WriteMask) (src3 : EvexOperand) (s : State) :
    execWith c (evexInstr o l seg dest src2 k src3) s =
      evexFnmsub c o (lanesOf l) seg dest src2 k (evexOperandEr src3) s := by
  cases o <;> cases l <;> rfl

theorem execWith_evexInstr512 (c : Configuration) (o : FmaOrder) (seg : Option Seg) (dest src2 : BitVec 5)
    (k : WriteMask) (src3 : EvexOperandEr) (s : State) :
    execWith c (evexInstr512 o seg dest src2 k src3) s = evexFnmsub c o 8 seg dest src2 k src3 s := by
  cases o <;> rfl

theorem lanesOf_le (l : Bool) : lanesOf l ≤ 8 := by cases l <;> decide

/-! ## Reading operand 3 -/

/-- A readable full-width operand is read (20_memory.md R41, R47). -/
theorem loadFull_of_readable {s : State} {ea : Word64} {n : Nat} {act : Nat → Bool} (h : s.FullReadable ea n act) :
    s.loadFull ea n act = .next (joinLanes ((List.range n).map fun j => s.readElem (ea.toNat + 8 * j))) := by
  obtain ⟨hact, hrest, hac⟩ := h
  have h1 : ¬((List.range n).any fun j => act j && !s.elemReadable (ea.toNat + 8 * j)) = true := by
    simpa using hact
  have h2 : ¬(((List.range n).any fun j => !s.elemReadable (ea.toNat + 8 * j)) && !s.params.faultSuppression) = true := by
    obtain hs | hs := hrest
    · simp [hs]
    · rw [Bool.and_eq_true, not_and_or]
      exact .inl (by simpa using hs)
  have h3 : ¬(s.acCheck && ea.toNat % (8 * n) != 0 && Config.alignmentFaults s.draws) = true := by
    obtain hs | hs := hac <;> simp [hs]
  rw [State.loadFull, if_neg h1, if_neg h2, if_neg h3]

/-- A readable broadcast operand is read (20_memory.md R43, R47). -/
theorem loadBroadcast_of_readable {s : State} {ea : Word64} {n : Nat} {act : Nat → Bool}
    (h : s.BroadcastReadable ea n act) :
    s.loadBroadcast ea n act = .next (joinLanes (List.replicate n (s.readElem ea.toNat))) := by
  obtain ⟨hact, hrest, hac⟩ := h
  have h1 : ¬((List.range n).any act && !s.elemReadable ea.toNat) = true := by
    simpa using hact
  have h2 : ¬(!s.elemReadable ea.toNat && !s.params.faultSuppression) = true := by
    obtain hs | hs := hrest <;> simp [hs]
  have h3 : ¬(s.acCheck && ea.toNat % 8 != 0) = true := by
    obtain hs | hs := hac <;> simp [hs]
  rw [State.loadBroadcast, if_neg h1, if_neg h2, if_neg h3]

theorem lane_joinLanes_map {f : Nat → Elem} {n j : Nat} (hn : n ≤ 8) (hj : j < n) :
    lane (joinLanes ((List.range n).map f)) j = f j := by
  rw [lane_joinLanes _ _ (by omega)]
  simp [hj]

/-- The elements of operand 3 as a statement names them (R130 and R140, step 2). -/
theorem vexOperand3_of_ready {s : State} {c : Configuration} {seg : Option Seg} {n len : Nat} {src3 : VexOperand}
    (hn : n ≤ 8) (h : s.VexOperandReady seg n len src3 c) :
    ∃ vc, s.vexOperand3 c seg n len src3 = .next vc ∧ ∀ j < n, lane vc j = s.vexElem3 seg len j src3 c := by
  cases src3 with
  | reg r => exact ⟨_, rfl, fun _ _ => rfl⟩
  | mem a => exact ⟨_, loadFull_of_readable h, fun j hj => lane_joinLanes_map hn hj⟩

theorem evexOperand3_of_ready {s : State} {c : Configuration} {seg : Option Seg} {n len : Nat} {k : WriteMask}
    {src3 : EvexOperandEr} (hn : n ≤ 8) (h : s.EvexOperandReady seg n len k src3 c) :
    ∃ vc, s.evexOperand3 c seg n len k src3 = .next vc ∧ ∀ j < n, lane vc j = s.evexElem3 seg n len j src3 c := by
  cases src3 with
  | reg r | regEr _ r => exact ⟨_, rfl, fun _ _ => rfl⟩
  | mem a => exact ⟨_, loadFull_of_readable h, fun j hj => lane_joinLanes_map hn hj⟩
  | bcst a =>
    refine ⟨_, loadBroadcast_of_readable h, fun j hj => ?_⟩
    rw [lane_joinLanes _ _ (by omega)]
    simp [hj, State.evexElem3]

/-! ## Completion -/

/-- `t` is `s` after an instruction that completed with the results `r` of its `n` elements. -/
def State.CompletedWith (s t : State) (dest : BitVec 5) (n len : Nat) (r : Nat → LaneResult) : Prop :=
  s.CompletedTo t dest n len (fun j => (r j).value) ∧ FlagsAdded s.mxcsr t.mxcsr n fun j => (r j).flags

/-- A form none of whose elements has an unmasked exception completes (60_exceptions.md R162, R164). -/
theorem commit_completedWith {s : State} {dest : BitVec 5} {masks : BitVec 6} {n len : Nat} (hn : n ≤ 8)
    {r : Nat → LaneResult} (hr : ∀ j < n, (r j).unmasked = false) :
    ∃ t, s.commit dest masks false ((List.range n).map r) len = .next t ∧ s.CompletedWith t dest n len r := by
  have hnone : ¬((List.range n).map r).any LaneResult.unmasked = true := by simpa using hr
  rw [State.commit, if_neg hnone]
  refine ⟨_, rfl, ⟨fun j hj => ?_, fun b hb => completed_readV_dest_upper (by simpa using hb), nextPc_toNat s len,
    fun q hq => completed_readV_other _ _ _ _ _ hq, rfl, rfl, rfl, rfl, rfl, rfl⟩, completed_mxcsr_upper, fun b _ => ?_⟩
  · rw [completed_readV_dest, List.map_map, lane_joinLanes_map hn hj]
    rfl
  · rw [completed_mxcsr, if_neg Bool.false_ne_true, mxcsrOr_getLsbD, laneFlags_getLsbD, List.any_map]
    rfl

/-- A VEX form completes (41_vfnmsub_vex.md R130). -/
theorem vexFnmsub_completedWith {c : Configuration} {o : FmaOrder} {n : Nat} {seg : Option Seg} {dest src2 : BitVec 4}
    {src3 : VexOperand} {s : State} (hn : n ≤ 8) (hready : s.VexReady)
    (h3 : s.VexOperandReady seg n (vexLength seg src3.length) src3 c) {r : Nat → LaneResult}
    (hr : ∀ vc, ∀ j < n, lane vc j = s.vexElem3 seg (vexLength seg src3.length) j src3 c →
      s.computeLane c o (roundingOf (mxcsrRc s.mxcsr)) (mxcsrMasks s.mxcsr) (fun _ => true) false
        (s.readV (vexReg dest)) (s.readV (vexReg src2)) vc j = r j)
    (hmasked : ∀ j < n, (r j).unmasked = false) :
    ∃ t, vexFnmsub c o n seg dest src2 src3 s = .next t ∧
      s.CompletedWith t (vexReg dest) n (vexLength seg src3.length) r := by
  obtain ⟨vc, hvc, hlanes⟩ := vexOperand3_of_ready hn h3
  rw [vexFnmsub, vexCheck_eq_none.mpr hready]
  simp only [hvc, andThen_next]
  rw [List.map_congr_left fun j hj => hr vc j (List.mem_range.mp hj) (hlanes j (List.mem_range.mp hj))]
  exact commit_completedWith hn hmasked

/-- An EVEX form without embedded rounding completes (42_vfnmsub_evex.md R140). -/
theorem evexFnmsub_completedWith {c : Configuration} {o : FmaOrder} {n : Nat} {seg : Option Seg} {dest src2 : BitVec 5}
    {k : WriteMask} {src3 : EvexOperandEr} {s : State} (hn : n ≤ 8) (hready : s.EvexReady n) (hk : k.wf = true)
    (h3 : s.EvexOperandReady seg n (evexLength seg src3.length) k src3 c) (her : embeddedRounding src3 = none)
    {r : Nat → LaneResult}
    (hr : ∀ vc, ∀ j < n, lane vc j = s.evexElem3 seg n (evexLength seg src3.length) j src3 c →
      s.computeLane c o (roundingOf (mxcsrRc s.mxcsr)) (mxcsrMasks s.mxcsr) (s.laneActive k) k.z
        (s.readV dest) (s.readV src2) vc j = r j)
    (hmasked : ∀ j < n, (r j).unmasked = false) :
    ∃ t, evexFnmsub c o n seg dest src2 k src3 s = .next t ∧
      s.CompletedWith t dest n (evexLength seg src3.length) r := by
  obtain ⟨vc, hvc, hlanes⟩ := evexOperand3_of_ready hn h3
  rw [evexFnmsub, evexCheck_eq_none.mpr ⟨hready, hk⟩]
  simp only [hvc, andThen_next, State.evexRounding, State.evexMasks, her, Option.getD_none, Option.isSome_none,
    Bool.false_eq_true, if_false]
  rw [List.map_congr_left fun j hj => hr vc j (List.mem_range.mp hj) (hlanes j (List.mem_range.mp hj))]
  exact commit_completedWith hn hmasked

/-- The result of an element of a masked form: `e` where it is active, else what is kept, without a flag (R142). -/
def maskedLane (act : Nat → Prop) [DecidablePred act] (e : Nat → LaneResult) (kept : Nat → Elem) (j : Nat) : LaneResult :=
  if act j then e j else { value := kept j, flags := 0, unmasked := false }

theorem State.CompletedWith.of_maskedLane {s t : State} {dest : BitVec 5} {n len : Nat} {act : Nat → Prop}
    [DecidablePred act] {e : Nat → LaneResult} {kept : Nat → Elem}
    (h : s.CompletedWith t dest n len (maskedLane act e kept)) :
    s.CompletedTo t dest n len (fun j => if act j then (e j).value else kept j) ∧
      FlagsAdded s.mxcsr t.mxcsr n fun j => if act j then (e j).flags else 0 := by
  have hvalue : (fun j => (maskedLane act e kept j).value) = fun j => if act j then (e j).value else kept j :=
    funext fun _ => apply_ite LaneResult.value ..
  have hflags : (fun j => (maskedLane act e kept j).flags) = fun j => if act j then (e j).flags else 0 :=
    funext fun _ => apply_ite LaneResult.flags ..
  rwa [State.CompletedWith, hvalue, hflags] at h

/-- Completion of an EVEX form of `n` elements in terms of its active elements (R140 to R142). -/
theorem evexFnmsub_result {c : Configuration} {o : FmaOrder} {n : Nat} {seg : Option Seg} {dest src2 : BitVec 5}
    {k : WriteMask} {src3 : EvexOperandEr} {s : State} (hn : n ≤ 8) (hready : s.EvexReady n) (hk : k.wf = true)
    (h3 : s.EvexOperandReady seg n (evexLength seg src3.length) k src3 c) (her : embeddedRounding src3 = none) :
    let act := fun j => k.aaa = 0 ∨ (s.readK k.aaa).getLsbD j = true
    let e := fun j =>
      let xyz := roles o (lane (s.readV dest) j) (lane (s.readV src2) j)
        (s.evexElem3 seg n (evexLength seg src3.length) j src3 c)
      s.fnmsub (roundingOf (mxcsrRc s.mxcsr)) (mxcsrMasks s.mxcsr) j xyz.1 xyz.2.1 xyz.2.2 c
    (∀ j < n, act j → (e j).unmasked = false) →
    ∃ t, evexFnmsub c o n seg dest src2 k src3 s = .next t ∧
      s.CompletedTo t dest n (evexLength seg src3.length)
        (fun j => if act j then (e j).value else if k.z then 0 else lane (s.readV dest) j) ∧
      FlagsAdded s.mxcsr t.mxcsr n fun j => if act j then (e j).flags else 0 := by
  intro act e hmasked
  have hact : ∀ j, s.laneActive k j = true ↔ act j := fun j => by simp [State.laneActive, act]
  have hr : ∀ vc, ∀ j < n, lane vc j = s.evexElem3 seg n (evexLength seg src3.length) j src3 c →
      s.computeLane c o (roundingOf (mxcsrRc s.mxcsr)) (mxcsrMasks s.mxcsr) (s.laneActive k) k.z (s.readV dest)
        (s.readV src2) vc j = maskedLane act e (fun j => if k.z then 0 else lane (s.readV dest) j) j := by
    intro vc j _ hvc
    simp only [State.computeLane, maskedLane, hact, hvc, e, State.fnmsub]
  have hquiet : ∀ j < n, (maskedLane act e (fun j => if k.z then 0 else lane (s.readV dest) j) j).unmasked = false := by
    intro j hj
    unfold maskedLane
    split
    · exact hmasked j hj ‹_›
    · rfl
  obtain ⟨t, ht, hdone⟩ := evexFnmsub_completedWith hn hready hk h3 her hr hquiet
  exact ⟨t, ht, hdone.of_maskedLane⟩

/-- Settles O57, template by template. -/
theorem anyConfigurationResult : Obligations.AnyConfigurationResult := by
  intro c s o seg
  refine ⟨fun l dest src2 src3 hready => ?_, fun dest src2 k hk => ⟨fun l src3 hready h3 => ?_, fun src3 hready h3 her => ?_⟩⟩
  · intro n len e h3 hmasked
    rw [execWith_vexInstr]
    refine vexFnmsub_completedWith (lanesOf_le l) hready h3 (fun vc j _ hvc => ?_) hmasked
    simp only [State.computeLane, hvc, if_true, e, State.fnmsub, len]
  · intro e hmasked
    rw [execWith_evexInstr]
    have hresult := evexFnmsub_result (c := c) (o := o) (seg := seg) (dest := dest) (src2 := src2)
      (src3 := evexOperandEr src3) (lanesOf_le l) hready hk
    rw [evexOperandEr_length] at hresult
    exact hresult h3 (by cases src3 <;> rfl) hmasked
  · intro e hmasked
    rw [execWith_evexInstr512]
    refine evexFnmsub_result le_rfl hready hk h3 ?_ hmasked
    cases src3 with
    | regEr rc r => exact absurd rfl (her rc r)
    | reg | mem | bcst => rfl

end Sys2Proof.Machine
end

section
/-! The format as numbers (40_fnmsub_lane.md R103, R105): a finite double is an integer number of units of 2^-2148, and so
are its negation, a product and the exact value; what the two encoders of a result build. -/

namespace Sys2Proof.Machine

open Sys2Proof

/-! ## Fields of an encoding -/

theorem expField_eq (v : Elem) : expField v = v.toNat / 2 ^ 52 % 2 ^ 11 := by
  rw [expField, BitVec.extractLsb'_toNat, Nat.shiftRight_eq_div_pow]

theorem fracField_eq (v : Elem) : fracField v = v.toNat % 2 ^ 52 := by
  rw [fracField, BitVec.extractLsb'_toNat, Nat.shiftRight_zero]

theorem signBit_eq (v : Elem) : signBit v = decide (2 ^ 63 ≤ v.toNat) := by
  exact (BitVec.msb_eq_getLsbD_last v).symm.trans (BitVec.msb_eq_decide v)

theorem fracField_lt (v : Elem) : fracField v < 2 ^ 52 := BitVec.isLt _

/-- The three fields determine the encoding. -/
theorem eq_of_fields_eq {v w : Elem} (hs : signBit v = signBit w) (he : expField v = expField w)
    (hf : fracField v = fracField w) : v = w := by
  rw [signBit_eq, signBit_eq, decide_eq_decide] at hs
  rw [expField_eq, expField_eq] at he
  rw [fracField_eq, fracField_eq] at hf
  have hv := v.isLt
  have hw := w.isLt
  exact BitVec.eq_of_toNat_eq (by omega)

theorem toNat_append_eq {a b : Nat} (x : BitVec a) (y : BitVec b) : (x ++ y).toNat = x.toNat * 2 ^ b + y.toNat := by
  rw [BitVec.toNat_append, ← Nat.shiftLeft_add_eq_or_of_lt y.isLt, Nat.shiftLeft_eq]

theorem packTiny_toNat (neg : Bool) {d : Nat} (hd : d < 2 ^ 63) : (packTiny neg d).toNat = neg.toNat * 2 ^ 63 + d := by
  have happend := toNat_append_eq (BitVec.ofBool neg) (BitVec.ofNat 63 d)
  rwa [BitVec.toNat_ofBool, BitVec.toNat_ofNat, Nat.mod_eq_of_lt hd] at happend

theorem packNormal_toNat (neg : Bool) (r : Nat) : (packNormal neg r).toNat =
    neg.toNat * 2 ^ 63 + (bitLength r - 1126) % 2 ^ 11 * 2 ^ 52 + r / 2 ^ (bitLength r - 53) % 2 ^ 52 := by
  have hhigh := toNat_append_eq (BitVec.ofBool neg) (BitVec.ofNat 11 (bitLength r - 1126))
  have happend := toNat_append_eq (BitVec.ofBool neg ++ BitVec.ofNat 11 (bitLength r - 1126))
    (BitVec.ofNat 52 (r / 2 ^ (bitLength r - 53)))
  rw [hhigh, BitVec.toNat_ofBool, BitVec.toNat_ofNat, BitVec.toNat_ofNat] at happend
  refine happend.trans ?_
  ring

/-! ## Magnitudes -/

theorem significand_lt (v : Elem) : significand v < 2 ^ 53 := by
  have hf := fracField_lt v
  unfold significand
  split <;> omega

theorem isZero_iff {v : Elem} : isZero v = true ↔ significand v = 0 := by
  unfold isZero significand
  by_cases he : expField v = 0 <;> simp [he]

theorem addendUnits_eq_zero {v : Elem} : addendUnits v = 0 ↔ isZero v = true := by
  rw [isZero_iff, addendUnits, Nat.mul_eq_zero]
  simp

theorem productUnits_eq_zero {x y : Elem} : productUnits x y = 0 ↔ isZero x = true ∨ isZero y = true := by
  rw [isZero_iff, isZero_iff, productUnits, Nat.mul_eq_zero, Nat.mul_eq_zero]
  simp

theorem expField_lt_of_isFinite {v : Elem} (h : isFinite v = true) : expField v < 2047 := by
  have hlt : expField v < 2 ^ 11 := BitVec.isLt _
  have hne : expField v ≠ 2047 := bne_iff_ne.mp h
  omega

theorem addendUnits_le_maxFinite {v : Elem} (h : isFinite v = true) : addendUnits v ≤ maxFinite := by
  have hscale : scaleField v + 1073 ≤ 3119 := by
    have hexp := expField_lt_of_isFinite h
    unfold scaleField
    omega
  have hsig := significand_lt v
  exact Nat.mul_le_mul (Nat.le_sub_one_of_lt hsig) (pow_le_pow_right₀ one_le_two hscale)

/-! ## The sign flipped -/

@[simp] theorem signBit_negated (v : Elem) : signBit (negated v) = !signBit v := by
  have hbit : (0x8000000000000000#64).getLsbD 63 = true := by decide
  rw [signBit, negated, BitVec.getLsbD_xor, hbit, Bool.xor_true]
  rfl

@[simp] theorem expField_negated (v : Elem) : expField (negated v) = expField v := by
  have hbits : (0x8000000000000000#64).extractLsb' 52 11 = 0 := by decide
  rw [expField, negated, BitVec.extractLsb'_xor, hbits]
  exact congrArg BitVec.toNat (BitVec.xor_zero)

@[simp] theorem fracField_negated (v : Elem) : fracField (negated v) = fracField v := by
  have hbits : (0x8000000000000000#64).extractLsb' 0 52 = 0 := by decide
  rw [fracField, negated, BitVec.extractLsb'_xor, hbits]
  exact congrArg BitVec.toNat (BitVec.xor_zero)

@[simp] theorem isFinite_negated (v : Elem) : isFinite (negated v) = isFinite v := by
  rw [isFinite, isFinite, expField_negated]

@[simp] theorem addendUnits_negated (v : Elem) : addendUnits (negated v) = addendUnits v := by
  simp only [addendUnits, significand, scaleField, expField_negated, fracField_negated]

/-! ## Integers with a sign -/

theorem signed_not (neg : Bool) (n : Nat) : signed (!neg) n = -signed neg n := by
  cases neg <;> simp [signed]

theorem signed_zero (neg : Bool) : signed neg 0 = 0 := by
  cases neg <;> rfl

theorem natAbs_signed (neg : Bool) (n : Nat) : (signed neg n).natAbs = n := by
  cases neg <;> simp [signed]

theorem signed_inj {neg : Bool} {m n : Nat} : signed neg m = signed neg n ↔ m = n := by
  cases neg <;> simp [signed]

theorem signed_lt_zero {neg : Bool} {n : Nat} (h : n ≠ 0) : signed neg n < 0 ↔ neg = true := by
  cases neg with
  | false => simp [signed]
  | true => simpa [signed] using Nat.pos_of_ne_zero h

/-- An integer is its magnitude with its sign. -/
theorem signed_natAbs (t : Int) : signed (decide (t < 0)) t.natAbs = t := by
  by_cases h : t < 0
  · simp only [h, decide_true, signed, if_true]
    omega
  · simp only [h, decide_false, signed, Bool.false_eq_true, if_false]
    omega

theorem cast_signed (neg : Bool) (n : Nat) : ((signed neg n : Int) : ℚ) = (if neg then -1 else 1) * n := by
  cases neg <;> simp [signed]

/-! ## Values in units of 2^-2148 -/

/-- The unit of the exact value. -/
def unitQ : ℚ := (2 : ℚ) ^ (-2148 : ℤ)

theorem unitQ_pos : 0 < unitQ := zpow_pos two_pos _

theorem pow_mul_unitQ (d : Nat) : (2 : ℚ) ^ d * unitQ = (2 : ℚ) ^ ((d : ℤ) - 2148) := by
  rw [unitQ, ← zpow_natCast, ← zpow_add₀ two_ne_zero, Int.sub_eq_add_neg]

theorem signed_mul_unitQ_inj {a b : Int} : (a : ℚ) * unitQ = b * unitQ ↔ a = b := by
  rw [mul_left_inj' unitQ_pos.ne', Int.cast_inj]

/-- The value of a double, in units (R103). -/
theorem valueQ_eq (v : Elem) : valueQ v = (signed (signBit v) (addendUnits v) : Int) * unitQ := by
  have hpow : (2 : ℚ) ^ ((scaleField v : ℤ) - 1075) = (2 : ℚ) ^ (scaleField v + 1073) * unitQ := by
    rw [pow_mul_unitQ]
    exact congrArg _ (by omega)
  rw [valueQ, cast_signed, addendUnits, hpow, Nat.cast_mul, Nat.cast_pow, Nat.cast_ofNat]
  simp only [mul_assoc]

/-- The value of a product, in units. -/
theorem valueQ_mul (x y : Elem) :
    valueQ x * valueQ y = (signed (signBit x ^^ signBit y) (productUnits x y) : Int) * unitQ := by
  have hx : 1 ≤ scaleField x := le_max_left ..
  have hy : 1 ≤ scaleField y := le_max_left ..
  have hpow : (2 : ℚ) ^ ((scaleField x : ℤ) - 1075) * (2 : ℚ) ^ ((scaleField y : ℤ) - 1075) =
      (2 : ℚ) ^ (scaleField x + scaleField y - 2) * unitQ := by
    rw [pow_mul_unitQ, ← zpow_add₀ two_ne_zero]
    congr 1
    omega
  have hsign : (if signBit x ^^ signBit y then (-1 : ℚ) else 1) =
      (if signBit x then -1 else 1) * (if signBit y then -1 else 1) := by
    cases signBit x <;> cases signBit y <;> simp
  rw [valueQ, valueQ, cast_signed, productUnits, hsign, Nat.cast_mul, Nat.cast_mul, Nat.cast_pow, Nat.cast_ofNat]
  linear_combination (if signBit x then -1 else 1 : ℚ) * (if signBit y then -1 else 1) * significand x * significand y * hpow

/-- The exact value, in units (R105). -/
theorem exactQ_eq (x y z : Elem) : exactQ x y z = (exactValue x y z : ℚ) * unitQ := by
  rw [exactQ, valueQ_mul, valueQ_eq, exactValue, productSign, signed_not, signed_not]
  push_cast
  ring

theorem exactQ_eq_zero {x y z : Elem} : exactQ x y z = 0 ↔ exactValue x y z = 0 := by
  rw [exactQ_eq, mul_eq_zero, or_iff_left unitQ_pos.ne', Int.cast_eq_zero]

theorem exactQ_pos {x y z : Elem} : 0 < exactQ x y z ↔ 0 < exactValue x y z := by
  rw [exactQ_eq, mul_pos_iff_of_pos_right unitQ_pos, Int.cast_pos]

theorem valueQ_mul_eq_zero {x y : Elem} : valueQ x * valueQ y = 0 ↔ isZero x = true ∨ isZero y = true := by
  rw [valueQ_mul, mul_eq_zero, or_iff_left unitQ_pos.ne', Int.cast_eq_zero, ← signed_zero (signBit x ^^ signBit y),
    signed_inj, productUnits_eq_zero]

theorem valueQ_negated (v : Elem) : valueQ (negated v) = -valueQ v := by
  rw [valueQ_eq, valueQ_eq, signBit_negated, addendUnits_negated, signed_not, Int.cast_neg, neg_mul]

/-- With a zero product the exact value is `-Z`. -/
theorem exactValue_of_isZero {x y z : Elem} (h : isZero x = true ∨ isZero y = true) :
    exactValue x y z = signed (!signBit z) (addendUnits z) := by
  rw [exactValue, productUnits_eq_zero.mpr h, signed_zero, zero_add]

/-! ## The number of bits -/

theorem bitLength_le_iff {n k : Nat} : bitLength n ≤ k ↔ n < 2 ^ k := by
  unfold bitLength
  split
  next h => simp [h]
  next h => rw [Nat.add_one_le_iff, Nat.log2_lt h]

theorem lt_bitLength_iff {n k : Nat} : k < bitLength n ↔ 2 ^ k ≤ n := by
  rw [← not_le, bitLength_le_iff, not_lt]

/-! ## The encoders -/

/-- The encoding of at most 2^52 units of 2^-1074. -/
theorem packTiny_spec (neg : Bool) {d : Nat} (hd : d ≤ 2 ^ 52) :
    isFinite (packTiny neg d) = true ∧ signBit (packTiny neg d) = neg ∧ addendUnits (packTiny neg d) = d * 2 ^ 1074 := by
  have hnat := packTiny_toNat neg (show d < 2 ^ 63 by omega)
  have hneg : neg.toNat ≤ 1 := Bool.toNat_le neg
  have hexp : expField (packTiny neg d) = d / 2 ^ 52 := by rw [expField_eq, hnat]; omega
  have hfrac : fracField (packTiny neg d) = d % 2 ^ 52 := by rw [fracField_eq, hnat]; omega
  have hscale : scaleField (packTiny neg d) = 1 := by rw [scaleField, hexp]; omega
  have hsig : significand (packTiny neg d) = d := by
    rw [significand, hexp, hfrac]
    split <;> omega
  refine ⟨bne_iff_ne.mpr (by rw [hexp]; omega), ?_, by rw [addendUnits, hsig, hscale]⟩
  rw [signBit_eq, hnat]
  cases neg with
  | false => simpa using by omega
  | true => simp

/-- A magnitude of the normal range has an exponent field of the format and 53 bits above its unit. -/
theorem bitLength_of_normal {r : Nat} (hlo : minNormal ≤ r) (hhi : r ≤ maxFinite) :
    1126 < bitLength r ∧ bitLength r ≤ 3172 ∧ 2 ^ 52 ≤ r / 2 ^ (bitLength r - 53) ∧
      r / 2 ^ (bitLength r - 53) < 2 ^ 53 := by
  have hmin : 1126 < bitLength r := lt_bitLength_iff.mpr hlo
  have hmax : bitLength r ≤ 3172 := by
    refine bitLength_le_iff.mpr (hhi.trans_lt ?_)
    rw [show 3172 = 53 + 3119 by rfl, pow_add]
    exact Nat.mul_lt_mul_of_pos_right (by decide) (by positivity)
  refine ⟨hmin, hmax, ?_, ?_⟩
  · rw [Nat.le_div_iff_mul_le (Nat.two_pow_pos _), ← pow_add, ← lt_bitLength_iff]
    omega
  · rw [Nat.div_lt_iff_lt_mul (Nat.two_pow_pos _), ← pow_add, ← bitLength_le_iff]
    omega

/-- The encoding of a magnitude of the normal range with 53 significant bits. -/
theorem packNormal_spec (neg : Bool) {r : Nat} (hlo : minNormal ≤ r) (hhi : r ≤ maxFinite)
    (hdvd : 2 ^ (bitLength r - 53) ∣ r) :
    isFinite (packNormal neg r) = true ∧ signBit (packNormal neg r) = neg ∧ addendUnits (packNormal neg r) = r := by
  obtain ⟨hmin, hmax, hqlo, hqhi⟩ := bitLength_of_normal hlo hhi
  have hnat := packNormal_toNat neg r
  have hneg : neg.toNat ≤ 1 := Bool.toNat_le neg
  generalize hq : r / 2 ^ (bitLength r - 53) = q at hnat hqlo hqhi
  have hexp : expField (packNormal neg r) = bitLength r - 1126 := by rw [expField_eq, hnat]; omega
  have hfrac : fracField (packNormal neg r) = q - 2 ^ 52 := by rw [fracField_eq, hnat]; omega
  have hscale : scaleField (packNormal neg r) + 1073 = bitLength r - 53 := by rw [scaleField, hexp]; omega
  have hsig : significand (packNormal neg r) = q := by
    rw [significand, hexp, hfrac, if_neg (by omega)]
    exact Nat.add_sub_of_le hqlo
  refine ⟨bne_iff_ne.mpr (by rw [hexp]; omega), ?_, ?_⟩
  · rw [signBit_eq, hnat]
    cases neg <;> simp <;> omega
  · rw [addendUnits, hsig, hscale, ← hq, Nat.div_mul_cancel hdvd]

/-! ## Landmarks and fixed words -/

/-- Settles O43, by evaluating each word. -/
theorem roundingEncoding : Obligations.RoundingEncoding := by
  unfold Obligations.RoundingEncoding
  decide

/-- Settles O42, each landmark from its fields. -/
theorem formatLandmarks : Obligations.FormatLandmarks := by
  have hvalue : ∀ {v : Elem} {neg m e}, signBit v = neg → significand v = m → scaleField v = e →
      valueQ v = (if neg then -1 else 1) * m * (2 : ℚ) ^ ((e : ℤ) - 1075) := by
    rintro v _ _ _ rfl rfl rfl
    rfl
  have hone : (2 : ℚ) ^ 52 * 2 ^ ((1023 : ℤ) - 1075) = 1 := by norm_num
  refine ⟨?_, ?_, ?_, ?_, ?_, ?_⟩
  · rw [hvalue (neg := false) (m := 2 ^ 53 - 1) (e := 2046) (by decide) (by decide) (by decide),
      show ((2046 : ℕ) : ℤ) - 1075 = (971 : ℕ) by norm_num, zpow_natCast]
    norm_num
  · rw [hvalue (neg := false) (m := 2 ^ 52) (e := 1) (by decide) (by decide) (by decide),
      show (-1022 : ℤ) = 52 + (((1 : ℕ) : ℤ) - 1075) by norm_num, zpow_add₀ two_ne_zero]
    norm_num
  · rw [hvalue (neg := false) (m := 1) (e := 1) (by decide) (by decide) (by decide),
      show ((1 : ℕ) : ℤ) - 1075 = -1074 by norm_num]
    norm_num
  · rw [hvalue (neg := false) (m := 2 ^ 52) (e := 1023) (by decide) (by decide) (by decide)]
    norm_num
  · rw [hvalue (neg := true) (m := 2 ^ 52) (e := 1023) (by decide) (by decide) (by decide)]
    norm_num
  · rw [hvalue (neg := true) (m := 0) (e := 1) (by decide) (by decide) (by decide)]
    norm_num

end Sys2Proof.Machine
end

section
/-! Rounding once (40_fnmsub_lane.md R104, R105, R112): where the two multiples of 2^d units around a magnitude are
neighbours among the numbers that may be answered (`Grid`), `roundUnits` answers the number that `RoundedTo` asks for. The
53-bit numbers and the multiples of 2^-1074 are two such grids. -/

namespace Sys2Proof.Machine

open Sys2Proof

/-! ## Between two neighbours -/

/-- `lo` and `hi` are numbers of `P` around `a` with no other number of `P` between them. -/
structure Bracket (P : ℚ → Prop) (lo a hi : ℚ) : Prop where
  nonneg : 0 ≤ lo
  lo_le : lo ≤ a
  le_hi : a ≤ hi
  lo_mem : P lo
  hi_mem : P hi
  gap : ∀ u, P u → u ≤ lo ∨ hi ≤ u

section Bracket

variable {P E : ℚ → Prop} {lo a hi : ℚ}

theorem RoundedTo.self (h : P a) (ha : 0 ≤ a) (rm : Rounding) : RoundedTo P E rm a a := by
  refine ⟨h, ?_⟩
  cases rm with
  | nearestEven =>
    refine fun u _ => ⟨by simp, fun he => .inl ?_⟩
    rw [sub_self, abs_zero, eq_comm, abs_eq_zero] at he
    linarith
  | down => exact ⟨le_rfl, fun u _ hu => hu⟩
  | up => exact ⟨le_rfl, fun u _ hu => hu⟩
  | towardZero => exact ⟨le_rfl, mul_nonneg ha ha, fun u _ hu => hu⟩

theorem Bracket.nearest_lo (h : Bracket P lo a hi) (hnear : a - lo ≤ hi - a) (htie : a - lo = hi - a → E lo) :
    RoundedTo P E .nearestEven a lo := by
  refine ⟨h.lo_mem, fun u hu => ?_⟩
  rw [abs_sub_comm lo, abs_of_nonneg (sub_nonneg.mpr h.lo_le)]
  obtain hle | hge := h.gap u hu
  · rw [abs_sub_comm u, abs_of_nonneg (by linarith [h.lo_le])]
    exact ⟨by linarith, fun he => .inl (by linarith)⟩
  · rw [abs_of_nonneg (by linarith [h.le_hi])]
    exact ⟨by linarith, fun he => .inr (htie (by linarith))⟩

theorem Bracket.nearest_hi (h : Bracket P lo a hi) (hnear : hi - a ≤ a - lo) (htie : hi - a = a - lo → E hi) :
    RoundedTo P E .nearestEven a hi := by
  refine ⟨h.hi_mem, fun u hu => ?_⟩
  rw [abs_of_nonneg (sub_nonneg.mpr h.le_hi)]
  obtain hle | hge := h.gap u hu
  · rw [abs_sub_comm u, abs_of_nonneg (by linarith [h.lo_le])]
    exact ⟨by linarith, fun he => .inr (htie (by linarith))⟩
  · rw [abs_of_nonneg (by linarith [h.le_hi])]
    exact ⟨by linarith, fun he => .inl (by linarith)⟩

theorem Bracket.down (h : Bracket P lo a hi) (hlt : a < hi) : RoundedTo P E .down a lo :=
  ⟨h.lo_mem, h.lo_le, fun u hu hua => (h.gap u hu).resolve_right fun hge => by linarith⟩

theorem Bracket.up (h : Bracket P lo a hi) (hlt : lo < a) : RoundedTo P E .up a hi :=
  ⟨h.hi_mem, h.le_hi, fun u hu hau => (h.gap u hu).resolve_left fun hle => by linarith⟩

theorem Bracket.towardZero (h : Bracket P lo a hi) (hneg : ∀ u, P u → P (-u)) (hlt : a < hi) :
    RoundedTo P E .towardZero a lo := by
  have ha : 0 ≤ a := h.nonneg.trans h.lo_le
  refine ⟨h.lo_mem, ?_, mul_nonneg h.nonneg ha, fun u hu hua => ?_⟩
  · rw [abs_of_nonneg h.nonneg, abs_of_nonneg ha]
    exact h.lo_le
  · have hmem : P |u| := by
      obtain he | he := abs_choice u <;> rw [he]
      exacts [hu, hneg u hu]
    rw [abs_of_nonneg ha] at hua
    rw [abs_of_nonneg h.nonneg]
    exact (h.gap _ hmem).resolve_right fun hge => by linarith

end Bracket

/-! ## Negative values -/

/-- The mode that rounds the negation of a value as `rm` rounds the value. -/
def Rounding.mirror : Rounding → Rounding
  | .nearestEven => .nearestEven
  | .down => .up
  | .up => .down
  | .towardZero => .towardZero

theorem RoundedTo.neg {P E : ℚ → Prop} (hP : ∀ u, P u → P (-u)) (hE : ∀ u, E u → E (-u)) {rm : Rounding} {t w : ℚ}
    (h : RoundedTo P E rm.mirror t w) : RoundedTo P E rm (-t) (-w) := by
  obtain ⟨hw, h⟩ := h
  refine ⟨hP w hw, ?_⟩
  have hdist : ∀ u, |-u - t| = |u - -t| := fun u => by
    rw [← abs_neg]
    exact congrArg _ (by ring)
  cases rm with
  | nearestEven =>
    intro u hu
    have hw' : |-w - -t| = |w - t| := by rw [← hdist, neg_neg]
    obtain ⟨hle, htie⟩ := h (-u) (hP u hu)
    rw [hdist] at hle htie
    rw [hw']
    exact ⟨hle, fun he => (htie he).imp neg_eq_iff_eq_neg.mp (hE w)⟩
  | down =>
    obtain ⟨hle, hleast⟩ := h
    exact ⟨neg_le_neg hle, fun u hu hut => le_neg.mpr (hleast (-u) (hP u hu) (le_neg.mpr hut))⟩
  | up =>
    obtain ⟨hle, hleast⟩ := h
    exact ⟨neg_le_neg hle, fun u hu hut => neg_le.mpr (hleast (-u) (hP u hu) (neg_le.mpr hut))⟩
  | towardZero =>
    obtain ⟨hle, hsign, hmost⟩ := h
    rw [abs_neg, abs_neg, neg_mul_neg]
    exact ⟨hle, hsign, hmost⟩

theorem roundUnits_neg (rm : Rounding) (n d : Nat) : roundUnits rm true n d = roundUnits rm.mirror false n d := by
  cases rm <;> rfl

/-! ## Whole units -/

theorem roundUnits_cases (rm : Rounding) (neg : Bool) (n d : Nat) :
    roundUnits rm neg n d = n / 2 ^ d ∨ roundUnits rm neg n d = n / 2 ^ d + 1 := by
  unfold roundUnits
  split
  · exact .inr rfl
  · exact .inl rfl

/-- What is a multiple of the unit is not changed. -/
theorem roundUnits_of_dvd {rm : Rounding} {neg : Bool} {n d : Nat} (h : n % 2 ^ d = 0) :
    roundUnits rm neg n d = n / 2 ^ d := by
  have hpos := Nat.two_pow_pos d
  have haway : roundsAway rm neg (n / 2 ^ d) (n % 2 ^ d) d = false := by
    rw [h]
    cases rm <;> simp [roundsAway, hpos.ne]
  rw [roundUnits, haway, if_neg Bool.false_ne_true]

theorem roundUnits_eq_iff {rm : Rounding} {neg : Bool} {n d : Nat} :
    roundUnits rm neg n d * 2 ^ d = n ↔ n % 2 ^ d = 0 := by
  refine ⟨fun h => ?_, fun h => ?_⟩
  · rw [← h, Nat.mul_mod_left]
  · rw [roundUnits_of_dvd h]
    exact Nat.div_mul_cancel (Nat.dvd_of_mod_eq_zero h)

/-! ## A grid of answers -/

/-- The multiples of 2^d units around `n` units are neighbours among the numbers of `P`; an even multiple is in `E`. -/
structure Grid (P E : ℚ → Prop) (n d : Nat) : Prop where
  neg : ∀ u, P u → P (-u)
  negEven : ∀ u, E u → E (-u)
  mem : ∀ m, m = n / 2 ^ d ∨ m = n / 2 ^ d + 1 → P (m * (2 ^ d * unitQ))
  even : ∀ m, m = n / 2 ^ d ∨ m = n / 2 ^ d + 1 → m % 2 = 0 → E (m * (2 ^ d * unitQ))
  gap : n % 2 ^ d ≠ 0 → ∀ u, P u →
    u ≤ (n / 2 ^ d : ℕ) * (2 ^ d * unitQ) ∨ ((n / 2 ^ d + 1 : ℕ) : ℚ) * (2 ^ d * unitQ) ≤ u

section Grid

variable {P E : ℚ → Prop} {n d : Nat}

/-- `n` is its quotient and its remainder. -/
theorem cast_eq_div_add_mod (n d : Nat) : (n : ℚ) = (n / 2 ^ d : ℕ) * 2 ^ d + (n % 2 ^ d : ℕ) := by
  exact_mod_cast (Nat.div_add_mod' n (2 ^ d)).symm

theorem Grid.sub_lo (n d : Nat) :
    (n : ℚ) * unitQ - (n / 2 ^ d : ℕ) * (2 ^ d * unitQ) = (n % 2 ^ d : ℕ) * unitQ := by
  linear_combination unitQ * cast_eq_div_add_mod n d

theorem Grid.hi_sub (n d : Nat) :
    ((n / 2 ^ d + 1 : ℕ) : ℚ) * (2 ^ d * unitQ) - n * unitQ = (2 ^ d - n % 2 ^ d : ℕ) * unitQ := by
  have hle : n % 2 ^ d ≤ 2 ^ d := (Nat.mod_lt n (Nat.two_pow_pos d)).le
  rw [Nat.cast_sub hle]
  push_cast
  linear_combination -unitQ * cast_eq_div_add_mod n d

theorem Grid.bracket (h : Grid P E n d) (hr : n % 2 ^ d ≠ 0) :
    Bracket P ((n / 2 ^ d : ℕ) * (2 ^ d * unitQ)) (n * unitQ) ((n / 2 ^ d + 1 : ℕ) * (2 ^ d * unitQ)) := by
  have hu := unitQ_pos
  refine ⟨by positivity, ?_, ?_, h.mem _ (.inl rfl), h.mem _ (.inr rfl), h.gap hr⟩
  · rw [← sub_nonneg, Grid.sub_lo]
    positivity
  · rw [← sub_nonneg, Grid.hi_sub]
    positivity

/-- R104 for a positive value. -/
theorem Grid.roundedTo_pos (h : Grid P E n d) (rm : Rounding) :
    RoundedTo P E rm (n * unitQ) ((roundUnits rm false n d : ℕ) * (2 ^ d * unitQ)) := by
  have hu := unitQ_pos
  by_cases hr : n % 2 ^ d = 0
  · have hn : (n : ℚ) * unitQ = (n / 2 ^ d : ℕ) * (2 ^ d * unitQ) := by
      rw [← sub_eq_zero, Grid.sub_lo, hr, Nat.cast_zero, zero_mul]
    rw [roundUnits_of_dvd hr, hn]
    exact .self (h.mem _ (.inl rfl)) (by positivity) rm
  have hb := h.bracket hr
  have hlt : n % 2 ^ d < 2 ^ d := Nat.mod_lt n (Nat.two_pow_pos d)
  have hlo := Grid.sub_lo n d
  have hhi := Grid.hi_sub n d
  have hlo_pos : (n / 2 ^ d : ℕ) * (2 ^ d * unitQ) < n * unitQ := by
    rw [← sub_pos, hlo]
    exact mul_pos (by exact_mod_cast Nat.pos_of_ne_zero hr) hu
  have hhi_pos : n * unitQ < (n / 2 ^ d + 1 : ℕ) * (2 ^ d * unitQ) := by
    rw [← sub_pos, hhi]
    exact mul_pos (by exact_mod_cast Nat.sub_pos_of_lt hlt) hu
  unfold roundUnits
  cases rm with
  | nearestEven =>
    simp only [roundsAway, Bool.or_eq_true, Bool.and_eq_true, decide_eq_true_eq, beq_iff_eq]
    split
    next haway =>
      refine hb.nearest_hi ?_ fun htie => h.even _ (.inr rfl) ?_
      · rw [hhi, hlo, mul_le_mul_iff_left₀ hu, Nat.cast_le]
        omega
      · rw [hhi, hlo, mul_left_inj' hu.ne', Nat.cast_inj] at htie
        omega
    next haway =>
      refine hb.nearest_lo ?_ fun htie => h.even _ (.inl rfl) ?_
      · rw [hhi, hlo, mul_le_mul_iff_left₀ hu, Nat.cast_le]
        omega
      · rw [hhi, hlo, mul_left_inj' hu.ne', Nat.cast_inj] at htie
        omega
  | down => exact hb.down hhi_pos
  | up =>
    have haway : roundsAway .up false (n / 2 ^ d) (n % 2 ^ d) d = true := by simpa [roundsAway] using hr
    rw [if_pos haway]
    exact hb.up hlo_pos
  | towardZero => exact hb.towardZero h.neg hhi_pos

/-- R104: rounding a magnitude with its sign. -/
theorem Grid.roundedTo (h : Grid P E n d) (rm : Rounding) (neg : Bool) :
    RoundedTo P E rm ((signed neg n : Int) * unitQ) ((signed neg (roundUnits rm neg n d * 2 ^ d) : Int) * unitQ) := by
  have hcast : ∀ m : ℕ, ((m * 2 ^ d : ℕ) : ℚ) * unitQ = m * (2 ^ d * unitQ) := fun m => by push_cast; ring
  rw [cast_signed, cast_signed, mul_assoc, mul_assoc, hcast]
  cases neg with
  | false => simpa using h.roundedTo_pos rm
  | true => simpa [roundUnits_neg] using (h.roundedTo_pos rm.mirror).neg h.neg h.negEven

end Grid

/-! ## The multiples of 2^-1074 -/

theorem leastUnit_eq : (2 : ℚ) ^ 1074 * unitQ = (2 : ℚ) ^ (-1074 : ℤ) :=
  (pow_mul_unitQ 1074).trans (congrArg _ (by norm_num))

/-- The numbers a tiny result is chosen from (R112). -/
theorem grid_multipleOfLeast (n : Nat) : Grid MultipleOfLeast MultipleOfLeastEven n 1074 where
  neg := by
    rintro _ ⟨k, rfl⟩
    exact ⟨-k, by rw [Int.cast_neg, neg_mul]⟩
  negEven := by
    rintro _ ⟨k, hk, rfl⟩
    exact ⟨-k, hk.neg_right, by rw [Int.cast_neg, neg_mul]⟩
  mem m _ := ⟨m, by rw [leastUnit_eq, Int.cast_natCast]⟩
  even m _ hm := ⟨m, by omega, by rw [leastUnit_eq, Int.cast_natCast]⟩
  gap := by
    rintro - _ ⟨k, rfl⟩
    have hu : (0 : ℚ) < 2 ^ (-1074 : ℤ) := zpow_pos two_pos _
    rw [leastUnit_eq, mul_le_mul_iff_left₀ hu, mul_le_mul_iff_left₀ hu]
    generalize n / 2 ^ 1074 = q
    obtain h | h := le_or_gt k q
    · exact .inl (by exact_mod_cast h)
    · exact .inr (by exact_mod_cast h)

/-! ## The numbers of 53 bits -/

theorem Representable.neg {w : ℚ} (h : Representable w) : Representable (-w) := by
  obtain ⟨n, q, hn, rfl⟩ := h
  exact ⟨-n, q, by rwa [Int.natAbs_neg], by rw [Int.cast_neg, neg_mul]⟩

theorem RepresentableEven.neg {w : ℚ} (h : RepresentableEven w) : RepresentableEven (-w) := by
  obtain ⟨n, q, hn, heven, rfl⟩ := h
  exact ⟨-n, q, by rwa [Int.natAbs_neg], heven.neg_right, by rw [Int.cast_neg, neg_mul]⟩

theorem RepresentableEven.representable {w : ℚ} (h : RepresentableEven w) : Representable w := by
  obtain ⟨n, q, hn, -, rfl⟩ := h
  exact ⟨n, q, hn, rfl⟩

/-- 2^53 units are an even number of the next larger unit. -/
theorem representableEven_of_le {m : Nat} (d : Nat) (hm : m ≤ 2 ^ 53) (heven : m % 2 = 0) :
    RepresentableEven (m * (2 ^ d * unitQ)) := by
  obtain hlt | rfl := hm.lt_or_eq
  · exact ⟨m, d - 2148, by simpa using hlt, by omega, by rw [pow_mul_unitQ, Int.cast_natCast]⟩
  · refine ⟨2 ^ 52, d + 1 - 2148, by decide, by decide, ?_⟩
    have hpow := pow_mul_unitQ (d + 1)
    rw [Nat.cast_add, Nat.cast_one] at hpow
    rw [← hpow, pow_succ]
    push_cast
    ring

theorem representable_of_le {m : Nat} (d : Nat) (hm : m ≤ 2 ^ 53) : Representable (m * (2 ^ d * unitQ)) := by
  obtain hlt | rfl := hm.lt_or_eq
  · exact ⟨m, d - 2148, by simpa using hlt, by rw [pow_mul_unitQ, Int.cast_natCast]⟩
  · exact (representableEven_of_le d le_rfl (by decide)).representable

/-- From 2^52 units on, no number of 53 bits is between two neighbouring multiples of the unit. -/
theorem representable_gap {q : Nat} {e : ℤ} (hq : 2 ^ 52 ≤ q) {u : ℚ} (hu : Representable u) :
    u ≤ q * 2 ^ e ∨ ((q + 1 : ℕ) : ℚ) * 2 ^ e ≤ u := by
  obtain ⟨k, f, hk, rfl⟩ := hu
  have hpos : (0 : ℚ) < 2 ^ e := zpow_pos two_pos e
  obtain hle | hlt := le_or_gt e f
  · obtain ⟨j, rfl⟩ := Int.le.dest hle
    rw [zpow_add₀ two_ne_zero, zpow_natCast, mul_comm ((2 : ℚ) ^ e), ← mul_assoc, mul_le_mul_iff_left₀ hpos,
      mul_le_mul_iff_left₀ hpos]
    obtain h | h := le_or_gt (k * 2 ^ j) (q : ℤ)
    · exact .inl (by exact_mod_cast h)
    · exact .inr (by exact_mod_cast h)
  · left
    have hhalf : (2 : ℚ) ^ f ≤ 2 ^ (e - 1) := zpow_le_zpow_right₀ one_le_two (by omega)
    have hkq : (k : ℚ) ≤ 2 * q := by
      have : k ≤ 2 * (q : ℤ) := by omega
      exact_mod_cast this
    calc (k : ℚ) * 2 ^ f ≤ 2 * q * 2 ^ f := by gcongr
      _ ≤ 2 * q * 2 ^ (e - 1) := by gcongr
      _ = q * 2 ^ e := by rw [zpow_sub_one₀ two_ne_zero]; ring

/-- The leading 53 bits of a magnitude. -/
theorem div_two_pow_bitLength_lt (n : Nat) : n / 2 ^ (bitLength n - 53) < 2 ^ 53 := by
  rw [Nat.div_lt_iff_lt_mul (Nat.two_pow_pos _), ← pow_add, ← bitLength_le_iff]
  omega

theorem le_div_two_pow_bitLength {n : Nat} (h : 53 ≤ bitLength n) : 2 ^ 52 ≤ n / 2 ^ (bitLength n - 53) := by
  rw [Nat.le_div_iff_mul_le (Nat.two_pow_pos _), ← pow_add, ← lt_bitLength_iff]
  omega

/-- The numbers a result of 53 bits is chosen from (R105). -/
theorem grid_representable (n : Nat) : Grid Representable RepresentableEven n (bitLength n - 53) := by
  have hq := div_two_pow_bitLength_lt n
  refine ⟨fun _ => .neg, fun _ => .neg, fun m hm => representable_of_le _ (by omega),
    fun m hm heven => representableEven_of_le _ (by omega) heven, fun hr u hu => ?_⟩
  have hlong : 53 ≤ bitLength n := by
    by_contra hshort
    rw [Nat.sub_eq_zero_of_le (by omega), pow_zero, Nat.mod_one] at hr
    exact hr rfl
  rw [pow_mul_unitQ]
  exact representable_gap (le_div_two_pow_bitLength hlong) hu

/-! ## `round53` -/

theorem round53_roundedTo (rm : Rounding) (neg : Bool) (n : Nat) :
    RoundedTo Representable RepresentableEven rm ((signed neg n : Int) * unitQ)
      ((signed neg (round53 rm neg n) : Int) * unitQ) :=
  (grid_representable n).roundedTo rm neg

/-- A magnitude of 53 bits is not changed. -/
theorem round53_eq_self {m e : Nat} (rm : Rounding) (neg : Bool) (hm : m < 2 ^ 53) :
    round53 rm neg (m * 2 ^ e) = m * 2 ^ e := by
  have hlen : bitLength (m * 2 ^ e) - 53 ≤ e := by
    have : bitLength (m * 2 ^ e) ≤ 53 + e := by
      rw [bitLength_le_iff, pow_add]
      exact Nat.mul_lt_mul_of_pos_right hm (Nat.two_pow_pos e)
    omega
  exact roundUnits_eq_iff.mpr (Nat.mod_eq_zero_of_dvd (dvd_mul_of_dvd_right (pow_dvd_pow 2 hlen) m))

/-- Rounding to 53 bits keeps a magnitude above a power of two that it has reached. -/
theorem le_round53 {n k : Nat} (rm : Rounding) (neg : Bool) (h : 2 ^ k ≤ n) : 2 ^ k ≤ round53 rm neg n := by
  have hlen : k < bitLength n := lt_bitLength_iff.mpr h
  have hge : n / 2 ^ (bitLength n - 53) ≤ roundUnits rm neg n (bitLength n - 53) := by
    obtain he | he := roundUnits_cases rm neg n (bitLength n - 53) <;> omega
  unfold round53
  refine le_trans ?_ (Nat.mul_le_mul_right _ hge)
  by_cases hlong : 53 ≤ bitLength n
  · calc 2 ^ k ≤ 2 ^ (52 + (bitLength n - 53)) := Nat.pow_le_pow_right two_pos (by omega)
      _ = 2 ^ 52 * 2 ^ (bitLength n - 53) := pow_add ..
      _ ≤ _ := Nat.mul_le_mul_right _ (le_div_two_pow_bitLength hlong)
  · rw [Nat.sub_eq_zero_of_le (by omega), pow_zero, Nat.div_one, mul_one]
    exact h

/-- The rounded magnitude is a number of 53 bits. -/
theorem round53_dvd (rm : Rounding) (neg : Bool) (n : Nat) :
    2 ^ (bitLength (round53 rm neg n) - 53) ∣ round53 rm neg n := by
  have hm : roundUnits rm neg n (bitLength n - 53) ≤ 2 ^ 53 := by
    have hq := div_two_pow_bitLength_lt n
    obtain he | he := roundUnits_cases rm neg n (bitLength n - 53) <;> omega
  unfold round53
  generalize roundUnits rm neg n (bitLength n - 53) = m at hm ⊢
  generalize bitLength n - 53 = d
  obtain hlt | rfl := hm.lt_or_eq
  · have hlen : bitLength (m * 2 ^ d) ≤ 53 + d := by
      rw [bitLength_le_iff, pow_add]
      exact Nat.mul_lt_mul_of_pos_right hlt (Nat.two_pow_pos d)
    exact dvd_mul_of_dvd_right (pow_dvd_pow 2 (by omega)) m
  · rw [← pow_add]
    have hlen : bitLength (2 ^ (53 + d)) ≤ 54 + d := bitLength_le_iff.mpr (Nat.pow_lt_pow_right (by decide) (by omega))
    exact pow_dvd_pow 2 (by omega)

end Sys2Proof.Machine
end

section
/-! The results of finite operands (40_fnmsub_lane.md R103, R105, R106, R111, R112, R113): the exact value rounded to 53 bits
decides which of overflow, underflow and the normal case the one rounding is in. -/

namespace Sys2Proof.Machine

open Sys2Proof

/-! ## The cases of finite operands -/

section Finite

variable {x y z : Elem} (hf : AllFinite x y z) (nan : BitVec 52) (rm : Rounding) (ftz um : Bool)
include hf

theorem fnmsubCases_of_allFinite : fnmsubCases nan rm ftz um x y z =
    if exactValue x y z = 0 then (zeroResult rm x y z, denormalFlag x y z)
    else if isZero x || isZero y then (negated z, denormalFlag x y z)
    else ((roundedResult rm ftz um x y z).1, denormalFlag x y z ||| (roundedResult rm ftz um x y z).2) := by
  obtain ⟨hnx, hix⟩ := isFinite_iff.mp hf.x
  obtain ⟨hny, hiy⟩ := isFinite_iff.mp hf.y
  obtain ⟨hnz, hiz⟩ := isFinite_iff.mp hf.z
  rw [fnmsubCases, if_neg (by simp [hnx, hny, hnz]), if_neg (mt invalidOperation_iff.mp hf.not_isInvalid),
    if_neg (by simp [hix, hiy]), if_neg (by simp [hiz])]
  rfl

theorem fnmsubCases_exactZero (h0 : exactValue x y z = 0) :
    fnmsubCases nan rm ftz um x y z = (zeroResult rm x y z, denormalFlag x y z) := by
  rw [fnmsubCases_of_allFinite hf, if_pos h0]

theorem fnmsubCases_zeroProduct (h0 : exactValue x y z ≠ 0) (hp : isZero x = true ∨ isZero y = true) :
    fnmsubCases nan rm ftz um x y z = (negated z, denormalFlag x y z) := by
  rw [fnmsubCases_of_allFinite hf, if_neg h0, if_pos (Bool.or_eq_true_iff.mpr hp)]

end Finite

/-! ## The exact value rounded to 53 bits -/

/-- The magnitude of the exact value rounded to 53 bits with unbounded exponent, in units (R105). -/
def roundedMagnitude (rm : Rounding) (x y z : Elem) : Nat :=
  round53 rm (decide (exactValue x y z < 0)) (exactValue x y z).natAbs

/-- The exact value rounded to 53 bits with unbounded exponent. -/
def roundedQ (rm : Rounding) (x y z : Elem) : ℚ :=
  (signed (decide (exactValue x y z < 0)) (roundedMagnitude rm x y z) : Int) * unitQ

section Rounded

variable {rm : Rounding} {x y z : Elem}

theorem roundedQ_roundedTo : RoundedTo Representable RepresentableEven rm (exactQ x y z) (roundedQ rm x y z) := by
  have h := round53_roundedTo rm (decide (exactValue x y z < 0)) (exactValue x y z).natAbs
  rwa [signed_natAbs, ← exactQ_eq] at h

theorem abs_roundedQ : |roundedQ rm x y z| = roundedMagnitude rm x y z * unitQ := by
  rw [roundedQ, abs_mul, abs_of_pos unitQ_pos, cast_signed]
  split <;> simp

theorem roundedQ_eq_exactQ_iff :
    roundedQ rm x y z = exactQ x y z ↔ roundedMagnitude rm x y z = (exactValue x y z).natAbs := by
  rw [exactQ_eq, roundedQ, signed_mul_unitQ_inj]
  nth_rw 3 [← signed_natAbs (exactValue x y z)]
  exact signed_inj

theorem maxFinite_mul_unitQ : (maxFinite : ℚ) * unitQ = (2 ^ 53 - 1) * 2 ^ 971 := by
  have hpow : (2 : ℚ) ^ 3119 * unitQ = 2 ^ 971 := by
    rw [pow_mul_unitQ, ← zpow_natCast]
    exact congrArg _ (by norm_num)
  rw [maxFinite, Nat.cast_mul, Nat.cast_pow, Nat.cast_ofNat, mul_assoc, hpow]
  norm_num

theorem minNormal_mul_unitQ : (minNormal : ℚ) * unitQ = (2 : ℚ) ^ (-1022 : ℤ) := by
  rw [minNormal, Nat.cast_pow, Nat.cast_ofNat, pow_mul_unitQ]
  exact congrArg _ (by norm_num)

theorem overflow_iff : (2 ^ 53 - 1) * 2 ^ 971 < |roundedQ rm x y z| ↔ maxFinite < roundedMagnitude rm x y z := by
  rw [abs_roundedQ, ← maxFinite_mul_unitQ, mul_lt_mul_iff_left₀ unitQ_pos, Nat.cast_lt]

theorem tiny_iff : |roundedQ rm x y z| < (2 : ℚ) ^ (-1022 : ℤ) ↔ roundedMagnitude rm x y z < minNormal := by
  rw [abs_roundedQ, ← minNormal_mul_unitQ, mul_lt_mul_iff_left₀ unitQ_pos, Nat.cast_lt]

theorem le_maxFinite_iff : |roundedQ rm x y z| ≤ (2 ^ 53 - 1) * 2 ^ 971 ↔ roundedMagnitude rm x y z ≤ maxFinite := by
  rw [← not_lt, overflow_iff, not_lt]

theorem minNormal_le_iff : (2 : ℚ) ^ (-1022 : ℤ) ≤ |roundedQ rm x y z| ↔ minNormal ≤ roundedMagnitude rm x y z := by
  rw [← not_lt, tiny_iff, not_lt]

/-- A double's magnitude is a number of 53 bits, so an exact value of that magnitude is not changed. -/
theorem roundedMagnitude_of_natAbs {v : Elem} (h : (exactValue x y z).natAbs = addendUnits v) :
    roundedMagnitude rm x y z = addendUnits v := by
  rw [roundedMagnitude, h]
  exact round53_eq_self rm _ (significand_lt v)

theorem natAbs_of_zeroProduct (hp : isZero x = true ∨ isZero y = true) :
    (exactValue x y z).natAbs = addendUnits z := by
  rw [exactValue_of_isZero hp, natAbs_signed]

theorem exactQ_pos_iff (h0 : exactValue x y z ≠ 0) : 0 < exactQ x y z ↔ decide (exactValue x y z < 0) = false := by
  rw [exactQ_pos, decide_eq_false_iff_not, not_lt, le_iff_lt_or_eq, or_iff_left h0.symm]

theorem exactQ_neg_iff : exactQ x y z < 0 ↔ decide (exactValue x y z < 0) = true := by
  rw [exactQ_eq, decide_eq_true_iff, ← Int.cast_lt_zero (R := ℚ), mul_neg_iff]
  simp [unitQ_pos, unitQ_pos.le]

end Rounded

/-! ## The one rounding -/

theorem two_pow_le_mul_two_pow {i j m : Nat} (hij : i ≤ j) (hm : 0 < m) : 2 ^ i ≤ m * 2 ^ j :=
  (Nat.pow_le_pow_right two_pos hij).trans (Nat.le_mul_of_pos_left _ hm)

theorem minNormal_le_maxFinite : minNormal ≤ maxFinite :=
  two_pow_le_mul_two_pow (i := 1126) (j := 3119) (m := 2 ^ 53 - 1) (by omega) (by omega)

section RoundResult

variable {rm : Rounding} {ftz um neg : Bool} {n : Nat}

theorem roundResult_overflow (h : maxFinite < round53 rm neg n) :
    roundResult rm ftz um neg n = (overflowResult rm neg, flagOE ||| flagPE) := by
  rw [roundResult, if_pos h]

theorem roundResult_tiny (h : round53 rm neg n < minNormal) :
    roundResult rm ftz um neg n = tinyResult rm ftz um neg n := by
  rw [roundResult, if_neg (h.trans_le minNormal_le_maxFinite).not_gt, if_pos h]

theorem roundResult_normal (hlo : minNormal ≤ round53 rm neg n) (hhi : round53 rm neg n ≤ maxFinite) :
    roundResult rm ftz um neg n =
      (packNormal neg (round53 rm neg n), if round53 rm neg n = n then 0 else flagPE) := by
  rw [roundResult, if_neg hhi.not_gt, if_neg hlo.not_gt]

/-- No flag of the rounding is Denormal. -/
theorem roundResult_and_not : (roundResult rm ftz um neg n).2 &&& ~~~flagDE = (roundResult rm ftz um neg n).2 := by
  obtain hf | ⟨-, hf⟩ := roundResult_flags rm ftz um neg n
  · exact (show ∀ f ∈ [0, flagPE, flagOE ||| flagPE, flagUE ||| flagPE], f &&& ~~~flagDE = f by decide) _ hf
  · rw [hf]
    decide

theorem tinyResult_oe : (tinyResult rm ftz um neg n).2.getLsbD 3 = false := by
  unfold tinyResult
  split
  · simp [flagUE, flagPE]
  dsimp only
  split
  · cases um <;> rfl
  · rfl

end RoundResult

/-- With UM = 0 Underflow is detected, be the value exact or not. -/
theorem tinyResult_unmasked (rm : Rounding) (ftz neg : Bool) (n : Nat) :
    (tinyResult rm ftz false neg n).2.getLsbD 4 = true := by
  unfold tinyResult
  rw [if_neg (by simp)]
  dsimp only
  split <;> rfl

theorem tinyResult_ftz (rm : Rounding) (neg : Bool) (n : Nat) :
    tinyResult rm true true neg n = (zeroOf neg, flagUE ||| flagPE) := rfl

theorem tinyResult_unflushed (rm : Rounding) (neg : Bool) (n : Nat) :
    tinyResult rm false true neg n =
      (packTiny neg (roundUnits rm neg n 1074), if n % 2 ^ 1074 = 0 then 0 else flagUE ||| flagPE) := rfl

/-- The values of R111's table. -/
theorem overflowResult_eq {rm : Rounding} {x y z : Elem} (h0 : exactValue x y z ≠ 0) :
    overflowResult rm (decide (exactValue x y z < 0)) =
      match rm with
      | .nearestEven => if 0 < exactQ x y z then 0x7FF0000000000000 else 0xFFF0000000000000
      | .down => if 0 < exactQ x y z then 0x7FEFFFFFFFFFFFFF else 0xFFF0000000000000
      | .up => if 0 < exactQ x y z then 0x7FF0000000000000 else 0xFFEFFFFFFFFFFFFF
      | .towardZero => if 0 < exactQ x y z then 0x7FEFFFFFFFFFFFFF else 0xFFEFFFFFFFFFFFFF := by
  simp only [exactQ_pos_iff h0]
  cases decide (exactValue x y z < 0) <;> cases rm <;> rfl

/-! ## What a finite operation answers -/

theorem getLsbD_three_and_not_de (f : BitVec 6) : (f &&& ~~~flagDE).getLsbD 3 = f.getLsbD 3 := by
  revert f
  decide

theorem getLsbD_four_and_not_de (f : BitVec 6) : (f &&& ~~~flagDE).getLsbD 4 = f.getLsbD 4 := by
  revert f
  decide

section Answers

variable {x y z : Elem} (hf : AllFinite x y z) (h0 : exactValue x y z ≠ 0) (nan : BitVec 52) (rm : Rounding)
  (ftz um : Bool)

theorem denormalFlag_or_and_not (x y z : Elem) (f : BitVec 6) :
    (denormalFlag x y z ||| f) &&& ~~~flagDE = f &&& ~~~flagDE := by
  obtain h | h := denormalFlag_cases x y z
  · exact h ▸ congrArg (· &&& ~~~flagDE) BitVec.zero_or
  · rw [h]
    revert f
    decide

include hf h0

/-- With a non-zero product the result is that of the one rounding, and so are the flags but Denormal. -/
theorem fnmsubCases_rounded (hp : ¬(isZero x = true ∨ isZero y = true)) :
    (fnmsubCases nan rm ftz um x y z).1 = (roundedResult rm ftz um x y z).1 ∧
      (fnmsubCases nan rm ftz um x y z).2 &&& ~~~flagDE = (roundedResult rm ftz um x y z).2 := by
  have hcase := fnmsubCases_of_allFinite hf nan rm ftz um
  rw [if_neg h0, if_neg (mt Bool.or_eq_true_iff.mp hp)] at hcase
  refine ⟨by rw [hcase], ?_⟩
  rw [hcase, denormalFlag_or_and_not, roundedResult, roundResult_and_not]

/-- R105 and R113: in the normal range the result is the exact value rounded once. -/
theorem fnmsubCases_inRange (hlo : minNormal ≤ roundedMagnitude rm x y z) (hhi : roundedMagnitude rm x y z ≤ maxFinite) :
    isFinite (fnmsubCases nan rm ftz um x y z).1 = true ∧
      valueQ (fnmsubCases nan rm ftz um x y z).1 = roundedQ rm x y z ∧
      (fnmsubCases nan rm ftz um x y z).2 &&& ~~~flagDE = if roundedQ rm x y z = exactQ x y z then 0 else flagPE := by
  by_cases hp : isZero x = true ∨ isZero y = true
  · have hexact : roundedQ rm x y z = exactQ x y z := by
      have habs := natAbs_of_zeroProduct (z := z) hp
      rw [roundedQ_eq_exactQ_iff, roundedMagnitude_of_natAbs habs, habs]
    rw [fnmsubCases_zeroProduct hf nan rm ftz um h0 hp, if_pos hexact, hexact]
    refine ⟨(isFinite_negated z).trans hf.z, ?_, denormalFlag_and_not x y z⟩
    rw [valueQ_negated, exactQ, valueQ_mul_eq_zero.mpr hp, neg_zero, zero_sub]
  · obtain ⟨hfin, hsign, hunits⟩ := packNormal_spec (decide (exactValue x y z < 0)) hlo hhi (round53_dvd ..)
    have hvalue : valueQ (packNormal (decide (exactValue x y z < 0)) (roundedMagnitude rm x y z)) = roundedQ rm x y z := by
      rw [valueQ_eq, hsign, hunits, roundedQ]
    obtain ⟨hv, hflags⟩ := fnmsubCases_rounded hf h0 nan rm ftz um hp
    rw [hv, hflags, roundedResult, roundResult_normal hlo hhi]
    simp only [roundedQ_eq_exactQ_iff]
    exact ⟨hfin, hvalue, rfl⟩

/-- R111: above the largest finite value. -/
theorem fnmsubCases_overflow (h : maxFinite < roundedMagnitude rm x y z) :
    (fnmsubCases nan rm ftz um x y z).1 = overflowResult rm (decide (exactValue x y z < 0)) ∧
      (fnmsubCases nan rm ftz um x y z).2 &&& ~~~flagDE = flagOE ||| flagPE := by
  have hp : ¬(isZero x = true ∨ isZero y = true) := fun hp => by
    rw [roundedMagnitude_of_natAbs (natAbs_of_zeroProduct hp)] at h
    exact (addendUnits_le_maxFinite hf.z).not_gt h
  obtain ⟨hv, hflags⟩ := fnmsubCases_rounded hf h0 nan rm ftz um hp
  rw [hv, hflags, roundedResult, roundResult_overflow h]
  exact ⟨rfl, rfl⟩

/-- R112: a tiny exact value with a non-zero product. -/
theorem fnmsubCases_tiny (hp : ¬(isZero x = true ∨ isZero y = true)) (h : roundedMagnitude rm x y z < minNormal) :
    (fnmsubCases nan rm ftz um x y z).1 =
        (tinyResult rm ftz um (decide (exactValue x y z < 0)) (exactValue x y z).natAbs).1 ∧
      (fnmsubCases nan rm ftz um x y z).2 &&& ~~~flagDE =
        (tinyResult rm ftz um (decide (exactValue x y z < 0)) (exactValue x y z).natAbs).2 := by
  obtain ⟨hv, hflags⟩ := fnmsubCases_rounded hf h0 nan rm ftz um hp
  rw [hv, hflags, roundedResult, roundResult_tiny h]
  exact ⟨rfl, rfl⟩

end Answers

/-- Where nothing overflows, Overflow is not detected. -/
theorem fnmsubCases_oe {x y z : Elem} (hf : AllFinite x y z) (h0 : exactValue x y z ≠ 0) (nan : BitVec 52)
    (rm : Rounding) (ftz um : Bool) (h : roundedMagnitude rm x y z ≤ maxFinite) :
    (fnmsubCases nan rm ftz um x y z).2.getLsbD 3 = false := by
  rw [← getLsbD_three_and_not_de]
  by_cases hlo : minNormal ≤ roundedMagnitude rm x y z
  · obtain ⟨-, -, hflags⟩ := fnmsubCases_inRange hf h0 nan rm ftz um hlo h
    rw [hflags]
    split <;> rfl
  by_cases hp : isZero x = true ∨ isZero y = true
  · rw [fnmsubCases_zeroProduct hf nan rm ftz um h0 hp, denormalFlag_and_not]
    rfl
  · obtain ⟨-, hflags⟩ := fnmsubCases_tiny hf h0 nan rm ftz um hp (not_le.mp hlo)
    rw [hflags]
    exact tinyResult_oe

/-- A result that is not tiny does not underflow (R112). -/
theorem fnmsubCases_ue {x y z : Elem} (hf : AllFinite x y z) (h0 : exactValue x y z ≠ 0) (nan : BitVec 52)
    (rm : Rounding) (ftz um : Bool) (h : minNormal ≤ roundedMagnitude rm x y z) :
    (fnmsubCases nan rm ftz um x y z).2.getLsbD 4 = false := by
  rw [← getLsbD_four_and_not_de]
  by_cases hhi : roundedMagnitude rm x y z ≤ maxFinite
  · obtain ⟨-, -, hflags⟩ := fnmsubCases_inRange hf h0 nan rm ftz um h hhi
    rw [hflags]
    split <;> rfl
  · obtain ⟨-, hflags⟩ := fnmsubCases_overflow hf h0 nan rm ftz um (not_le.mp hhi)
    rw [hflags]
    rfl

/-- A detected flag whose mask bit is 0 is an unmasked exception (60_exceptions.md R162). -/
theorem fnmsub64_unmasked_of_getLsbD {nan : BitVec 52} {rm : Rounding} {daz ftz : Bool} {masks : BitVec 6}
    {x y z : Elem} {b : Nat} (hd : (fnmsub64 nan rm daz ftz masks x y z).flags.getLsbD b = true)
    (hm : masks.getLsbD b = false) : (fnmsub64 nan rm daz ftz masks x y z).unmasked = true := by
  refine fnmsub64_unmasked_iff.mpr fun hzero => ?_
  have hlt : b < 6 := BitVec.lt_of_getLsbD hd
  have hbit := congrArg (BitVec.getLsbD · b) hzero
  simp only [BitVec.getLsbD_and, BitVec.getLsbD_not, hd, hm, hlt] at hbit
  simp at hbit

/-! ## The normal range and overflow -/

/-- Settles O44: the normal range. -/
theorem oneRounding : Obligations.OneRounding := by
  intro nan rm ftz masks x y z hx hy hz hne r
  refine ⟨roundedQ rm x y z, roundedQ_roundedTo, fun hlo hhi => ?_⟩
  exact fnmsubCases_inRange ⟨hx, hy, hz⟩ (mt exactQ_eq_zero.mpr hne) nan rm ftz _ (minNormal_le_iff.mp hlo)
    (le_maxFinite_iff.mp hhi)

/-- Settles O45: overflow, or one of the other cases. -/
theorem overflowResult_holds : Obligations.OverflowResult := by
  intro nan rm ftz masks x y z hx hy hz hne r
  have hf : AllFinite x y z := ⟨hx, hy, hz⟩
  have h0 := mt exactQ_eq_zero.mpr hne
  refine ⟨roundedQ rm x y z, roundedQ_roundedTo, fun h => ?_, fun h => ?_⟩
  · obtain ⟨hvalue, hflags⟩ := fnmsubCases_overflow hf h0 nan rm ftz (masks.getLsbD 4) (overflow_iff.mp h)
    exact ⟨hflags, hvalue.trans (overflowResult_eq h0)⟩
  · exact fnmsubCases_oe hf h0 nan rm ftz _ (le_maxFinite_iff.mp h)

/-! ## Underflow -/

/-- The exact value rounded to a multiple of 2^-1074 (R112). -/
def tinyQ (rm : Rounding) (x y z : Elem) : ℚ :=
  (signed (decide (exactValue x y z < 0))
    (roundUnits rm (decide (exactValue x y z < 0)) (exactValue x y z).natAbs 1074 * 2 ^ 1074) : Int) * unitQ

theorem tinyQ_roundedTo {rm : Rounding} {x y z : Elem} :
    RoundedTo MultipleOfLeast MultipleOfLeastEven rm (exactQ x y z) (tinyQ rm x y z) := by
  have h := (grid_multipleOfLeast (exactValue x y z).natAbs).roundedTo rm (decide (exactValue x y z < 0))
  rwa [signed_natAbs, ← exactQ_eq] at h

theorem signed_roundUnits_eq_iff (rm : Rounding) (neg : Bool) (n d : Nat) :
    signed neg (roundUnits rm neg n d * 2 ^ d) = signed neg n ↔ n % 2 ^ d = 0 :=
  signed_inj.trans roundUnits_eq_iff

theorem tinyQ_eq_exactQ_iff {rm : Rounding} {x y z : Elem} :
    tinyQ rm x y z = exactQ x y z ↔ (exactValue x y z).natAbs % 2 ^ 1074 = 0 := by
  rw [exactQ_eq, tinyQ, signed_mul_unitQ_inj]
  have h := signed_roundUnits_eq_iff rm (decide (exactValue x y z < 0)) (exactValue x y z).natAbs 1074
  rwa [signed_natAbs] at h

/-- A magnitude that rounds below 2^(k + d) to 53 bits has at most 2^k units of 2^d. -/
theorem roundUnits_le_of_round53_lt {rm : Rounding} {neg : Bool} {n k d : Nat} (h : round53 rm neg n < 2 ^ (k + d)) :
    roundUnits rm neg n d ≤ 2 ^ k := by
  have hn : n < 2 ^ (k + d) := by
    by_contra hge
    exact h.not_ge (le_round53 rm neg (not_lt.mp hge))
  have hq : n / 2 ^ d < 2 ^ k := by
    rwa [Nat.div_lt_iff_lt_mul (Nat.two_pow_pos _), ← pow_add]
  obtain he | he := roundUnits_cases rm neg n d <;> omega

theorem minNormal_eq : minNormal = 2 ^ (52 + 1074) := congrArg (2 ^ ·) (by norm_num)

/-- The value of a tiny result that is not flushed. -/
theorem packTiny_tinyQ {rm : Rounding} {x y z : Elem} (h : roundedMagnitude rm x y z < minNormal) :
    let v := packTiny (decide (exactValue x y z < 0))
      (roundUnits rm (decide (exactValue x y z < 0)) (exactValue x y z).natAbs 1074)
    isFinite v = true ∧ valueQ v = tinyQ rm x y z ∧ (signBit v = true ↔ exactQ x y z < 0) := by
  rw [minNormal_eq] at h
  obtain ⟨hfin, hsign, hunits⟩ := packTiny_spec (decide (exactValue x y z < 0)) (roundUnits_le_of_round53_lt h)
  exact ⟨hfin, by rw [valueQ_eq, hsign, hunits, tinyQ], by rw [hsign, exactQ_neg_iff]⟩

/-- Settles O46: the three responses to a tiny value, and that no other value underflows. -/
theorem underflowResult : Obligations.UnderflowResult := by
  intro nan rm ftz masks x y z hx hy hz hne hprod r
  have hf : AllFinite x y z := ⟨hx, hy, hz⟩
  have h0 := mt exactQ_eq_zero.mpr hne
  have hp := mt valueQ_mul_eq_zero.mpr hprod
  refine ⟨roundedQ rm x y z, roundedQ_roundedTo, fun h => ?_, fun hlo => ⟨?_, fun hhi => ?_⟩⟩
  · have htiny := tiny_iff.mp h
    obtain ⟨hvalue, hflags⟩ := fnmsubCases_tiny hf h0 nan rm ftz (masks.getLsbD 4) hp htiny
    change r.value = _ at hvalue
    change r.flags &&& ~~~flagDE = _ at hflags
    by_cases hum : masks.getLsbD 4 = false
    · have hue : r.flags.getLsbD 4 = true := by
        rw [← getLsbD_four_and_not_de, hflags, hum]
        exact tinyResult_unmasked ..
      rw [if_pos hum]
      exact ⟨hue, fnmsub64_unmasked_of_getLsbD hue hum⟩
    rw [if_neg hum]
    rw [Bool.not_eq_false] at hum
    by_cases hftz : ftz = true
    · rw [if_pos hftz, hvalue, hflags, hum, hftz, tinyResult_ftz]
      refine ⟨?_, rfl⟩
      simp only [exactQ_pos_iff h0]
      cases decide (exactValue x y z < 0) <;> rfl
    · rw [if_neg hftz]
      rw [Bool.not_eq_true] at hftz
      refine ⟨tinyQ rm x y z, tinyQ_roundedTo, ?_⟩
      obtain ⟨hfin, hv, hsign⟩ := packTiny_tinyQ htiny
      rw [hvalue, hflags, hum, hftz, tinyResult_unflushed]
      simp only [tinyQ_eq_exactQ_iff]
      exact ⟨hfin, hv, hsign, trivial⟩
  · exact fnmsubCases_ue hf h0 nan rm ftz _ (minNormal_le_iff.mp hlo)
  · obtain ⟨-, hvalue, -⟩ := fnmsubCases_inRange hf h0 nan rm ftz (masks.getLsbD 4) (minNormal_le_iff.mp hlo)
      (le_maxFinite_iff.mp hhi)
    exact hvalue

/-! ## Exact results -/

theorem expField_ne_zero {v : Elem} (hd : isDenormal v = false) (hz : isZero v = false) : expField v ≠ 0 := by
  intro he
  simp only [isDenormal, isZero, he, beq_self_eq_true, Bool.true_and] at hd hz
  rw [bne, hz] at hd
  cases hd

theorem addendUnits_ne_zero {v : Elem} (he : expField v ≠ 0) : addendUnits v ≠ 0 := by
  rw [Ne, addendUnits_eq_zero, isZero, beq_eq_false_iff_ne.mpr he, Bool.false_and]
  exact Bool.false_ne_true

theorem minNormal_le_addendUnits_iff {v : Elem} : minNormal ≤ addendUnits v ↔ expField v ≠ 0 := by
  have hf := fracField_lt v
  rw [minNormal_eq, pow_add]
  constructor
  · intro h he
    have hscale : scaleField v + 1073 = 1074 := congrArg (· + 1073) (max_eq_left (he ▸ Nat.zero_le 1))
    rw [addendUnits, significand, if_pos he, hscale] at h
    exact absurd (le_of_mul_le_mul_right h (by positivity)) hf.not_ge
  · intro he
    rw [addendUnits, significand, if_neg he]
    exact Nat.mul_le_mul (by omega) (pow_le_pow_right₀ one_le_two (by unfold scaleField; omega))

theorem bitLength_mul_two_pow {m e : Nat} (hlo : 2 ^ 52 ≤ m) (hhi : m < 2 ^ 53) : bitLength (m * 2 ^ e) = 53 + e := by
  have hle : bitLength (m * 2 ^ e) ≤ 53 + e := by
    rw [bitLength_le_iff, pow_add]
    exact Nat.mul_lt_mul_of_pos_right hhi (Nat.two_pow_pos e)
  have hlt : 52 + e < bitLength (m * 2 ^ e) := by
    rw [lt_bitLength_iff, pow_add]
    exact Nat.mul_le_mul_right _ hlo
  omega

theorem bitLength_addendUnits {v : Elem} (he : expField v ≠ 0) : bitLength (addendUnits v) = 53 + (expField v + 1073) := by
  have hf := fracField_lt v
  have hscale : scaleField v = expField v := max_eq_right (Nat.one_le_iff_ne_zero.mpr he)
  rw [addendUnits, significand, if_neg he, hscale]
  exact bitLength_mul_two_pow (by omega) (by omega)

/-- A double of the normal range is determined by its value. -/
theorem eq_of_valueQ_eq {v w : Elem} (hv : expField v ≠ 0) (h : valueQ v = valueQ w) : v = w := by
  rw [valueQ_eq, valueQ_eq, signed_mul_unitQ_inj] at h
  have hunits : addendUnits v = addendUnits w := by
    have habs := congrArg Int.natAbs h
    rwa [natAbs_signed, natAbs_signed] at habs
  have hw : expField w ≠ 0 := by
    rw [← minNormal_le_addendUnits_iff, ← hunits]
    exact minNormal_le_addendUnits_iff.mpr hv
  have hexp : expField v = expField w := by
    have hlen := congrArg bitLength hunits
    rw [bitLength_addendUnits hv, bitLength_addendUnits hw] at hlen
    omega
  have hfrac : fracField v = fracField w := by
    have hpos : 0 < 2 ^ (max 1 (expField w) + 1073) := Nat.two_pow_pos _
    rw [addendUnits, addendUnits, scaleField, scaleField, hexp, significand, significand, if_neg hv, if_neg hw] at hunits
    exact Nat.add_left_cancel (Nat.eq_of_mul_eq_mul_right hpos hunits)
  have hne := addendUnits_ne_zero hw
  have hsign : signBit v = signBit w := by
    rw [hunits] at h
    rw [Bool.eq_iff_iff, ← signed_lt_zero hne, h, signed_lt_zero hne]
  exact eq_of_fields_eq hsign hexp hfrac

theorem eq_zero_of_and_not_de : ∀ f : BitVec 6, f &&& ~~~flagDE = 0 → f.getLsbD 1 = false → f = 0 := by
  decide

/-- Settles O47: the result is a double of the exact value, and a normal double is the only one of its value. -/
theorem exactNoFlag : Obligations.ExactNoFlag := by
  intro nan rm masks x y z v hx hy hz hdx hdy hdz hv hdv hzv hval
  have hf : AllFinite x y z := ⟨hx, hy, hz⟩
  have hexp := expField_ne_zero hdv hzv
  have habs : (exactValue x y z).natAbs = addendUnits v := by
    rw [valueQ_eq, exactQ_eq, signed_mul_unitQ_inj] at hval
    rw [← hval, natAbs_signed]
  have h0 : exactValue x y z ≠ 0 := by
    rw [← Int.natAbs_ne_zero, habs]
    exact addendUnits_ne_zero hexp
  have hmag : roundedMagnitude rm x y z = addendUnits v := roundedMagnitude_of_natAbs habs
  have hexact : roundedQ rm x y z = exactQ x y z := roundedQ_eq_exactQ_iff.mpr (hmag.trans habs.symm)
  obtain ⟨-, hvalue, hflags⟩ := fnmsubCases_inRange hf h0 nan rm false (masks.getLsbD 4)
    (hmag ▸ minNormal_le_addendUnits_iff.mpr hexp) (hmag ▸ addendUnits_le_maxFinite hv)
  have hde : (fnmsubCases nan rm false (masks.getLsbD 4) x y z).2.getLsbD 1 = false := by
    rw [← Bool.not_eq_true, fnmsubCases_de]
    simp [hdx, hdy, hdz]
  have hcase : fnmsubCases nan rm false (masks.getLsbD 4) x y z = (v, 0) :=
    Prod.ext (eq_of_valueQ_eq hexp (hval.trans (hexact.symm.trans hvalue.symm))).symm
      (eq_zero_of_and_not_de _ (hflags.trans (if_pos hexact)) hde)
  simp only [fnmsub64, dazOperand_false, hcase]
  simp [laneResult, unmaskedOf]

/-- R106's table of the sign of a zero. -/
theorem zeroResult_eq (rm : Rounding) (x y z : Elem) : zeroResult rm x y z =
    if valueQ x * valueQ y = 0 ∧ (signBit x = signBit y ↔ signBit z = false) then
      (if signBit x = signBit y then 0x8000000000000000 else 0)
    else if rm = .down then 0x8000000000000000 else 0 := by
  have hcond : ((isZero x || isZero y) && productSign x y == !signBit z) = true ↔
      valueQ x * valueQ y = 0 ∧ (signBit x = signBit y ↔ signBit z = false) := by
    rw [valueQ_mul_eq_zero, Bool.and_eq_true, Bool.or_eq_true, beq_iff_eq, productSign]
    cases signBit x <;> cases signBit y <;> cases signBit z <;> simp
  have hsign : productSign x y = decide (signBit x = signBit y) := by
    rw [productSign]
    cases signBit x <;> cases signBit y <;> rfl
  simp only [zeroResult, hcond]
  simp only [hsign, zeroOf_eq_ite, decide_eq_true_eq, beq_iff_eq]

/-- Settles O48: the two cases of R106. -/
theorem exactZero : Obligations.ExactZero := by
  intro nan rm ftz masks x y z hx hy hz r
  have hf : AllFinite x y z := ⟨hx, hy, hz⟩
  refine ⟨fun h => ?_, fun hprod hz0 => ?_⟩
  · have hcase := fnmsubCases_exactZero hf nan rm ftz (masks.getLsbD 4) (exactQ_eq_zero.mp h)
    have hvalue : r.value = zeroResult rm x y z := congrArg Prod.fst hcase
    have hflags : r.flags = denormalFlag x y z := congrArg Prod.snd hcase
    rw [hvalue, hflags]
    exact ⟨denormalFlag_and_not x y z, zeroResult_eq rm x y z⟩
  · have hp := valueQ_mul_eq_zero.mp hprod
    have h0 : exactValue x y z ≠ 0 := by
      rw [← Int.natAbs_ne_zero, natAbs_of_zeroProduct hp, Ne, addendUnits_eq_zero, hz0]
      exact Bool.false_ne_true
    have hcase := fnmsubCases_zeroProduct hf nan rm ftz (masks.getLsbD 4) h0 hp
    have hvalue : r.value = negated z := congrArg Prod.fst hcase
    have hflags : r.flags = denormalFlag x y z := congrArg Prod.snd hcase
    rw [hvalue, hflags, denormalFlag_and_not]
    exact ⟨rfl, rfl⟩

end Sys2Proof.Machine
end

section
/-! The six VEX-encoded rows (41_vfnmsub_vex.md): the worked words of the spec, and the result of each row with its operands
in the roles that its name gives them (40_fnmsub_lane.md R101). -/

namespace Sys2Proof.Machine

open Sys2Proof

/-- Settles O5: each word is decoded as it stands. -/
theorem decodeExamples : Obligations.DecodeExamples :=
  ⟨rfl, rfl, rfl, rfl, rfl, rfl⟩

/-- Completion of a VEX form of the machine, for either length and any roles of the operands (R130): the machine is the
default instantiation. -/
theorem exec_vexInstr_result {s : State} {seg : Option Seg} {dest src2 : BitVec 4} {src3 : VexOperand} (o : FmaOrder)
    (l : Bool) (hready : s.VexReady) :
    let len := vexLength seg src3.length
    let e := fun j =>
      let xyz := roles o (lane (s.readV (vexReg dest)) j) (lane (s.readV (vexReg src2)) j) (s.vexElem3 seg len j src3)
      s.fnmsub (roundingOf (mxcsrRc s.mxcsr)) (mxcsrMasks s.mxcsr) j xyz.1 xyz.2.1 xyz.2.2
    s.VexOperandReady seg (lanesOf l) len src3 → (∀ j < lanesOf l, (e j).unmasked = false) →
    ∃ t, exec (vexInstr o l seg dest src2 src3) s = .next t ∧
      s.CompletedTo t (vexReg dest) (lanesOf l) len (fun j => (e j).value) ∧
      FlagsAdded s.mxcsr t.mxcsr (lanesOf l) fun j => (e j).flags := by
  intro len e
  rw [exec_eq_execWith]
  obtain ⟨hvex, -⟩ := anyConfigurationResult defaultConfiguration s o seg
  exact hvex l dest src2 src3 hready

/-- Settles O28: the order 132 takes DEST and SRC3 as factors. -/
theorem vfnmsub132pdVexResult : Obligations.Vfnmsub132pdVexResult := by
  intro s seg dest src2 src3 hready
  exact ⟨exec_vexInstr_result .o132 false hready, exec_vexInstr_result .o132 true hready⟩

/-- Settles O29: the order 213 takes SRC2 and DEST as factors. -/
theorem vfnmsub213pdVexResult : Obligations.Vfnmsub213pdVexResult := by
  intro s seg dest src2 src3 hready
  exact ⟨exec_vexInstr_result .o213 false hready, exec_vexInstr_result .o213 true hready⟩

/-- Settles O30: the order 231 takes SRC2 and SRC3 as factors. -/
theorem vfnmsub231pdVexResult : Obligations.Vfnmsub231pdVexResult := by
  intro s seg dest src2 src3 hready
  exact ⟨exec_vexInstr_result .o231 false hready, exec_vexInstr_result .o231 true hready⟩

end Sys2Proof.Machine
end

section
/-! The nine EVEX-encoded rows (42_vfnmsub_evex.md): the result of each row that does not round by itself, with its operands in
the roles that its name gives them (40_fnmsub_lane.md R101), for any write mask and either way of masking (R141, R142). -/

namespace Sys2Proof.Machine

open Sys2Proof

/-- What R140 to R142 say of the form `i`, of order `o` with `n` elements: it completes with the results of its active
elements, if none of these has an unmasked exception. -/
def State.EvexCompletes (s : State) (i : Instr) (o : FmaOrder) (n : Nat) (seg : Option Seg) (dest src2 : BitVec 5)
    (k : WriteMask) (src3 : EvexOperandEr) : Prop :=
  let len := evexLength seg src3.length
  let act := fun j => k.aaa = 0 ∨ (s.readK k.aaa).getLsbD j = true
  let e := fun j =>
    let xyz := roles o (lane (s.readV dest) j) (lane (s.readV src2) j) (s.evexElem3 seg n len j src3)
    s.fnmsub (roundingOf (mxcsrRc s.mxcsr)) (mxcsrMasks s.mxcsr) j xyz.1 xyz.2.1 xyz.2.2
  (∀ j < n, act j → (e j).unmasked = false) →
  ∃ t, exec i s = .next t ∧
    s.CompletedTo t dest n len (fun j => if act j then (e j).value else if k.z then 0 else lane (s.readV dest) j) ∧
    FlagsAdded s.mxcsr t.mxcsr n fun j => if act j then (e j).flags else 0

section Completes

variable {s : State} {seg : Option Seg} {dest src2 : BitVec 5} {k : WriteMask} (hk : k.wf = true) (o : FmaOrder)

include hk

/-- Every form that runs the EVEX template of the machine without embedded rounding completes. -/
theorem evexCompletes_of_exec {i : Instr} {n : Nat} {src3 : EvexOperandEr}
    (hi : exec i s = evexFnmsub defaultConfiguration o n seg dest src2 k src3 s) (hn : n ≤ 8) (hready : s.EvexReady n)
    (h3 : s.EvexOperandReady seg n (evexLength seg src3.length) k src3) (her : embeddedRounding src3 = none) :
    s.EvexCompletes i o n seg dest src2 k src3 := by
  unfold State.EvexCompletes
  rw [hi]
  exact evexFnmsub_result hn hready hk h3 her

/-- The 128-bit and 256-bit rows have no embedded rounding (R140). -/
theorem evexInstr_completes (l : Bool) (src3 : EvexOperand) (hready : s.EvexReady (lanesOf l))
    (h3 : s.EvexOperandReady seg (lanesOf l) (evexLength seg (evexOperandEr src3).length) k (evexOperandEr src3)) :
    s.EvexCompletes (evexInstr o l seg dest src2 k src3) o (lanesOf l) seg dest src2 k (evexOperandEr src3) := by
  exact evexCompletes_of_exec hk o (exec_evexInstr ..) (lanesOf_le l) hready h3 (by cases src3 <;> rfl)

/-- The 512-bit rows, with any operand but a register that carries its own rounding. -/
theorem evexInstr512_completes (src3 : EvexOperandEr) (hready : s.EvexReady 8)
    (h3 : s.EvexOperandReady seg 8 (evexLength seg src3.length) k src3) (her : ∀ rc r, src3 ≠ .regEr rc r) :
    s.EvexCompletes (evexInstr512 o seg dest src2 k src3) o 8 seg dest src2 k src3 := by
  refine evexCompletes_of_exec hk o (exec_evexInstr512 ..) le_rfl hready h3 ?_
  cases src3 with
  | regEr rc r => exact absurd rfl (her rc r)
  | reg | mem | bcst => rfl

end Completes

/-- Settles O31: the order 132 takes DEST and SRC3 as factors. -/
theorem vfnmsub132pdEvexResult : Obligations.Vfnmsub132pdEvexResult := by
  intro s seg dest src2 k hk act
  simp only [← evexOperandEr_length]
  exact ⟨evexInstr_completes hk .o132 false, evexInstr_completes hk .o132 true, evexInstr512_completes hk .o132⟩

/-- Settles O32: the order 213 takes SRC2 and DEST as factors. -/
theorem vfnmsub213pdEvexResult : Obligations.Vfnmsub213pdEvexResult := by
  intro s seg dest src2 k hk act
  simp only [← evexOperandEr_length]
  exact ⟨evexInstr_completes hk .o213 false, evexInstr_completes hk .o213 true, evexInstr512_completes hk .o213⟩

/-- Settles O33: the order 231 takes SRC2 and SRC3 as factors. -/
theorem vfnmsub231pdEvexResult : Obligations.Vfnmsub231pdEvexResult := by
  intro s seg dest src2 k hk act
  simp only [← evexOperandEr_length]
  exact ⟨evexInstr_completes hk .o231 false, evexInstr_completes hk .o231 true, evexInstr512_completes hk .o231⟩

end Sys2Proof.Machine
end

section
/-! The exceptions (60_exceptions.md): the vectors of R161, the enabling checks of R166 and R167, what an unmasked
floating-point exception leaves of MXCSR (R162, R163), and embedded rounding, which raises none (R165). The only faults a
form raises beyond its checks and its memory operand are the `State.simdFault` of a detected unmasked flag
(`exec_eq_fault`). -/

namespace Sys2Proof.Machine

open Sys2Proof

/-- Settles O22, fault by fault. -/
theorem faultVectors : Obligations.FaultVectors :=
  ⟨rfl, rfl, rfl, rfl, rfl, rfl, rfl, fun _ => ⟨rfl, rfl⟩⟩

/-! ## The checks that read no data -/

theorem extractLsb'_eq_allOnes_iff {n : Nat} (w : BitVec n) (lo len : Nat) :
    w.extractLsb' lo len = BitVec.allOnes len ↔ ∀ i < len, w.getLsbD (lo + i) = true := by
  constructor
  · intro h i hi
    have hbit := congrArg (BitVec.getLsbD · i) h
    simpa [hi] using hbit
  · intro h
    apply BitVec.eq_of_getLsbD_eq
    intro i hi
    simp [hi, h i hi]

/-- `Enabled.avx` from the raw bits (10_state.md R32; 60_exceptions.md R166). -/
theorem enabledAvx_eq_false_iff (s : State) : s.enabledAvx = false ↔
    (s.params.mode ≠ .prot32 ∧ s.params.mode ≠ .long64) ∨ s.sys.cr4.getLsbD 18 = false ∨
      s.sys.xcr0.getLsbD 1 = false ∨ s.sys.xcr0.getLsbD 2 = false := by
  have hxcr0 : s.sys.xcr0.extractLsb' 1 2 = 0b11#2 ↔ s.sys.xcr0.getLsbD 1 = true ∧ s.sys.xcr0.getLsbD 2 = true := by
    simpa [Nat.lt_succ_iff, Nat.le_one_iff_eq_zero_or_eq_one] using extractLsb'_eq_allOnes_iff s.sys.xcr0 1 2
  rw [State.enabledAvx, ← Bool.not_eq_true, Bool.and_eq_true, Bool.and_eq_true, Bool.or_eq_true, beq_iff_eq, beq_iff_eq,
    beq_iff_eq, hxcr0]
  simp only [not_and_or, not_or, Bool.not_eq_true, or_assoc]

/-- `Enabled.avx512` asks for XCR0[7:5] as well (60_exceptions.md R166). -/
theorem enabledAvx512_eq_false_iff (s : State) : s.enabled.avx512 = false ↔
    s.enabledAvx = false ∨ s.sys.xcr0.getLsbD 5 = false ∨ s.sys.xcr0.getLsbD 6 = false ∨
      s.sys.xcr0.getLsbD 7 = false := by
  have hxcr0 : s.sys.xcr0.extractLsb' 5 3 = 0b111#3 ↔
      s.sys.xcr0.getLsbD 5 = true ∧ s.sys.xcr0.getLsbD 6 = true ∧ s.sys.xcr0.getLsbD 7 = true := by
    simpa [Nat.forall_lt_succ_right, Nat.le_one_iff_eq_zero_or_eq_one, and_assoc] using extractLsb'_eq_allOnes_iff s.sys.xcr0 5 3
  rw [State.enabled, ← Bool.not_eq_true, Bool.and_eq_true, beq_iff_eq, hxcr0]
  simp only [not_and_or, Bool.not_eq_true]

/-- The check of the VEX forms from the raw bits (60_exceptions.md R166). -/
theorem vexCheck_eq (s : State) : s.vexCheck =
    if s.params.hasFma = false ∨ (s.params.mode ≠ .prot32 ∧ s.params.mode ≠ .long64) ∨ s.sys.cr4.getLsbD 18 = false ∨
        s.sys.xcr0.getLsbD 1 = false ∨ s.sys.xcr0.getLsbD 2 = false then some .ud
    else if s.sys.cr0.getLsbD 3 = true then some .nm else none := by
  refine if_congr ?_ rfl rfl
  rw [← enabledAvx_eq_false_iff, Bool.or_eq_true, Bool.not_eq_true', Bool.not_eq_true']
  rfl

/-- The check of the EVEX forms from the raw bits (60_exceptions.md R167); a well-formed mask never stops it. -/
theorem evexCheck_eq (s : State) (n : Nat) {k : WriteMask} (hk : k.wf = true) : s.evexCheck n k =
    if s.params.hasAvx512f = false ∨ (64 * n < 512 ∧ s.params.hasAvx512vl = false) ∨
        (s.params.mode ≠ .prot32 ∧ s.params.mode ≠ .long64) ∨ s.sys.cr4.getLsbD 18 = false ∨
        s.sys.xcr0.getLsbD 1 = false ∨ s.sys.xcr0.getLsbD 2 = false ∨ s.sys.xcr0.getLsbD 5 = false ∨
        s.sys.xcr0.getLsbD 6 = false ∨ s.sys.xcr0.getLsbD 7 = false then some .ud
    else if s.sys.cr0.getLsbD 3 = true then some .nm else none := by
  have hmask : ¬(k.z && k.aaa == 0#3) = true := ne_true_of_eq_false ((Bool.not_eq_true' _).mp hk)
  have hshort : 64 * n < 512 ↔ n < 8 := by omega
  have henabled := enabledAvx512_eq_false_iff s
  rw [enabledAvx_eq_false_iff, or_assoc, or_assoc, or_assoc] at henabled
  rw [State.evexCheck, if_neg hmask]
  refine if_congr ?_ rfl rfl
  rw [← henabled, hshort]
  simp only [Bool.or_eq_true, Bool.and_eq_true, decide_eq_true_eq, Bool.not_eq_true', or_assoc]

/-- #UD goes before #NM (60_exceptions.md R170), and either ends the instruction. -/
theorem ud_else_nm_of_check {P Q : Prop} [Decidable P] [Decidable Q] {check : Option Fault}
    {out : Host.Outcome State Fault Refusal} (hcheck : check = if P then some .ud else if Q then some .nm else none)
    (hout : ∀ f, check = some f → out = .fault f) :
    if P then out = .fault .ud else Q → out = .fault .nm := by
  split
  next hp => exact hout _ (by rw [hcheck, if_pos hp])
  next hp => exact fun hq => hout _ (by rw [hcheck, if_neg hp, if_pos hq])

theorem vexFnmsub_of_check {c : Configuration} {o : FmaOrder} {n : Nat} {seg : Option Seg} {dest src2 : BitVec 4}
    {src3 : VexOperand} {s : State} {f : Fault} (h : s.vexCheck = some f) :
    vexFnmsub c o n seg dest src2 src3 s = .fault f := by
  rw [vexFnmsub, h]
  rfl

theorem evexFnmsub_of_check {c : Configuration} {o : FmaOrder} {n : Nat} {seg : Option Seg} {dest src2 : BitVec 5}
    {k : WriteMask} {src3 : EvexOperandEr} {s : State} {f : Fault} (h : s.evexCheck n k = some f) :
    evexFnmsub c o n seg dest src2 k src3 s = .fault f := by
  rw [evexFnmsub, h]
  rfl

theorem mask_wf_of_evexWf {m : CpuMode} {dest src2 : BitVec 5} {k : WriteMask} {b : Bool}
    (h : evexWf m dest src2 k b = true) : k.wf = true := by
  simp only [evexWf, Bool.and_eq_true] at h
  tauto

/-- Settles O23: the VEX template begins with `State.vexCheck`. -/
theorem vexNotEnabled : Obligations.VexNotEnabled := by
  intro i s hi
  cases i using forms_cases with
  | vex =>
    rw [exec_vexInstr]
    exact ud_else_nm_of_check (vexCheck_eq s) fun _ => vexFnmsub_of_check
  | evex | evex512 => simp at hi

/-- Settles O24: the EVEX template begins with `State.evexCheck`, whose first clause no well-formed mask meets. -/
theorem evexNotEnabled : Obligations.EvexNotEnabled := by
  intro i s hi hwf
  cases i using forms_cases with
  | vex => simp at hi
  | evex =>
    rw [wf_evexInstr] at hwf
    rw [exec_evexInstr, vectorLength_evexInstr]
    exact ud_else_nm_of_check (evexCheck_eq s _ (mask_wf_of_evexWf hwf)) fun _ => evexFnmsub_of_check
  | evex512 =>
    rw [wf_evexInstr512] at hwf
    rw [exec_evexInstr512, vectorLength_evexInstr512]
    exact ud_else_nm_of_check (evexCheck_eq s _ (mask_wf_of_evexWf hwf)) fun _ => evexFnmsub_of_check

/-! ## MXCSR at an unmasked floating-point exception -/

@[simp] theorem unmaskedOf_allOnes (detected : BitVec 6) : unmaskedOf (BitVec.allOnes 6) detected = 0 := by
  simp [unmaskedOf]

theorem mxcsrWithFlags_getLsbD (m : BitVec 32) (f : BitVec 6) (b : Nat) : (mxcsrWithFlags m f).getLsbD b =
    if b < 6 then f.getLsbD b else (m.extractLsb' 6 26).getLsbD (b - 6) :=
  BitVec.getLsbD_append

theorem mxcsrWithFlags_control (m : BitVec 32) (f : BitVec 6) :
    (mxcsrWithFlags m f).extractLsb' 6 26 = m.extractLsb' 6 26 := by
  apply BitVec.eq_of_getLsbD_eq
  intro i hi
  simp [mxcsrWithFlags_getLsbD, hi]

@[simp] theorem mxcsrFlags_mxcsrWithFlags (m : BitVec 32) (f : BitVec 6) : mxcsrFlags (mxcsrWithFlags m f) = f := by
  apply BitVec.eq_of_getLsbD_eq
  intro i hi
  simp [mxcsrFlags, mxcsrWithFlags_getLsbD, hi]

/-- MXCSR as the fault of an unmasked floating-point exception leaves it (60_exceptions.md R162). -/
def State.faultMxcsr (s : State) (masks detected : BitVec 6) : BitVec 32 :=
  mxcsrWithFlags s.mxcsr (faultFlags (Config.faultFlags s.draws) (mxcsrFlags s.mxcsr) masks detected)

section FaultMxcsr

variable (s : State) (masks detected : BitVec 6)

/-- #XM, or #UD in its place (60_exceptions.md R163). -/
theorem simdFault_eq : s.simdFault masks detected =
    if s.sys.cr4.getLsbD 10 then .xm (s.faultMxcsr masks detected) else .udSimd (s.faultMxcsr masks detected) := rfl

theorem atFault_simdFault : s.atFault (s.simdFault masks detected) = s.setMxcsr (s.faultMxcsr masks detected) := by
  rw [simdFault_eq]
  split <;> rfl

theorem faultMxcsr_control : (s.faultMxcsr masks detected).extractLsb' 6 26 = s.mxcsr.extractLsb' 6 26 :=
  mxcsrWithFlags_control ..

theorem mxcsrFlags_and_not_faultMxcsr : mxcsrFlags s.mxcsr &&& ~~~mxcsrFlags (s.faultMxcsr masks detected) = 0 := by
  rw [State.faultMxcsr, mxcsrFlags_mxcsrWithFlags]
  exact (faultFlags_bounds ..).1

theorem faultMxcsr_sticky {b : Nat} (hb : b < 6) (h : s.mxcsr.getLsbD b = true) :
    (s.faultMxcsr masks detected).getLsbD b = true := by
  have hbit := congrArg (BitVec.getLsbD · b) (mxcsrFlags_and_not_faultMxcsr s masks detected)
  simpa [mxcsrFlags, hb, h] using hbit

theorem faultMxcsr_flagsAdded {masks detected : BitVec 6} (h : unmaskedOf masks detected ≠ 0) :
    FaultFlagsAdded s.mxcsr (s.faultMxcsr masks detected) masks detected := by
  refine ⟨faultMxcsr_control .., mxcsrFlags_and_not_faultMxcsr .., ?_⟩
  rw [State.faultMxcsr, mxcsrFlags_mxcsrWithFlags]
  obtain ⟨-, hupper, hunmasked⟩ := faultFlags_bounds (Config.faultFlags s.draws) (mxcsrFlags s.mxcsr) masks detected
  exact ⟨hupper, hunmasked h⟩

end FaultMxcsr

/-! ## When a form faults -/

/-- A result is called unmasked only with a detected flag whose mask bit is 0 (60_exceptions.md R162). -/
def LaneResult.UnmaskedDetected (masks : BitVec 6) (r : LaneResult) : Prop :=
  r.unmasked = true → unmaskedOf masks r.flags ≠ 0

theorem fnmsub_unmaskedDetected {s : State} {rm : Rounding} {masks : BitVec 6} {j : Nat} {x y z : Elem} :
    (s.fnmsub rm masks j x y z).UnmaskedDetected masks := fnmsub64_unmasked_iff.mp

theorem computeLane_unmaskedDetected {s : State} {o : FmaOrder} {rm : Rounding} {masks : BitVec 6} {act : Nat → Bool}
    {zeroing : Bool} {va vb vc : Vec} {j : Nat} :
    (s.computeLane defaultConfiguration o rm masks act zeroing va vb vc j).UnmaskedDetected masks := by
  unfold State.computeLane
  split
  · exact fnmsub_unmaskedDetected
  · exact fun h => absurd h Bool.false_ne_true

/-- An unmasked flag of one element is one of the instruction. -/
theorem unmaskedOf_laneFlags_ne_zero {masks : BitVec 6} {rs : List LaneResult} {r : LaneResult} (hr : r ∈ rs)
    (h : unmaskedOf masks r.flags ≠ 0) : unmaskedOf masks (laneFlags rs) ≠ 0 := by
  refine mt (fun hzero => ?_) h
  apply BitVec.eq_of_getLsbD_eq
  intro b hb
  have hbit := congrArg (BitVec.getLsbD · b) hzero
  simp only [unmaskedOf, BitVec.getLsbD_and, laneFlags_getLsbD, BitVec.ofNat_eq_ofNat, BitVec.getLsbD_zero,
    Bool.and_eq_false_iff, List.any_eq_false, Bool.not_eq_true] at hbit ⊢
  exact hbit.imp_left fun hnone => hnone r hr

/-- A commit faults exactly for an unmasked exception, of which a flag is detected (60_exceptions.md R162). -/
theorem commit_eq_fault {s : State} {dest : BitVec 5} {masks : BitVec 6} {suppress : Bool} {rs : List LaneResult}
    {len : Nat} {f : Fault} (hrs : ∀ r ∈ rs, r.UnmaskedDetected masks)
    (h : s.commit dest masks suppress rs len = .fault f) :
    unmaskedOf masks (laneFlags rs) ≠ 0 ∧ f = s.simdFault masks (laneFlags rs) := by
  unfold State.commit at h
  split at h
  next hany =>
    cases h
    obtain ⟨r, hr, hu⟩ := List.any_eq_true.mp hany
    exact ⟨unmaskedOf_laneFlags_ne_zero hr (hrs r hr hu), rfl⟩
  next => cases h

/-- A fault that no unmasked floating-point exception raises. -/
abbrev Fault.NotSimd (f : Fault) : Prop := ∀ m, f ≠ .xm m ∧ f ≠ .udSimd m

theorem atFault_of_notSimd {s : State} {f : Fault} (h : f.NotSimd) : s.atFault f = s := by
  cases f with
  | xm m => exact absurd rfl (h m).1
  | udSimd m => exact absurd rfl (h m).2
  | ud | nm | memory | ac => rfl

theorem notSimd_of_ud_or_nm {f : Fault} (h : f = .ud ∨ f = .nm) : f.NotSimd := by
  obtain rfl | rfl := h <;> simp [Fault.NotSimd]

theorem andThen_eq_fault {α β : Type} {o : Host.Outcome α Fault Refusal} {g : α → Host.Outcome β Fault Refusal}
    {f : Fault} (h : andThen o g = .fault f) : o = .fault f ∨ ∃ a, o = .next a ∧ g a = .fault f := by
  cases o with
  | next a => exact .inr ⟨a, rfl, h⟩
  | fault r =>
    cases h
    exact .inl rfl
  | refused r => cases h

/-- Reading operand 3 raises a memory fault or #AC(0) only (20_memory.md R44, R55). -/
theorem Operand3Spec.notSimd {m : Option MemOperand} {s : State} {len : Nat} {r : Host.Outcome Vec Fault Refusal}
    {f : Fault} (h : Operand3Spec m s len r) (hf : r = .fault f) : f.NotSimd := by
  subst hf
  cases m with
  | none =>
    obtain ⟨v, hv⟩ := h
    cases hv
  | some o => cases h <;> simp [Fault.NotSimd]

/-- The fault of an exception that is unmasked under `masks`. -/
def State.SimdFaulted (s : State) (masks : BitVec 6) (f : Fault) : Prop :=
  ∃ d, unmaskedOf masks d ≠ 0 ∧ f = s.simdFault masks d

theorem andThen_commit_eq_fault {s : State} {m : Option MemOperand} {len len' : Nat} {r : Host.Outcome Vec Fault Refusal}
    (h3 : Operand3Spec m s len r) {dest : BitVec 5} {masks : BitVec 6} {suppress : Bool} {rs : Vec → List LaneResult}
    (hrs : ∀ vc, ∀ r ∈ rs vc, r.UnmaskedDetected masks) {f : Fault}
    (h : andThen r (fun vc => s.commit dest masks suppress (rs vc) len') = .fault f) :
    f.NotSimd ∨ s.SimdFaulted masks f := by
  obtain hr | ⟨vc, -, hcommit⟩ := andThen_eq_fault h
  · exact .inl (h3.notSimd hr)
  · exact .inr ⟨_, commit_eq_fault (hrs vc) hcommit⟩

theorem vexFnmsub_eq_fault {o : FmaOrder} {n : Nat} {seg : Option Seg} {dest src2 : BitVec 4} {src3 : VexOperand}
    {s : State} {f : Fault} (h : vexFnmsub defaultConfiguration o n seg dest src2 src3 s = .fault f) :
    f.NotSimd ∨ s.SimdFaulted (mxcsrMasks s.mxcsr) f := by
  unfold vexFnmsub at h
  split at h
  next hcheck =>
    cases h
    exact .inl (notSimd_of_ud_or_nm (ud_or_nm_of_vexCheck hcheck))
  next =>
    exact andThen_commit_eq_fault (vexOperand3_spec ..)
      (fun _ => List.forall_mem_map.mpr fun _ _ => computeLane_unmaskedDetected) h

/-- Embedded rounding masks every exception (60_exceptions.md R165). -/
theorem simdFaulted_of_evexMasks {s : State} {src3 : EvexOperandEr} {f : Fault}
    (h : s.SimdFaulted (s.evexMasks src3) f) : s.SimdFaulted (mxcsrMasks s.mxcsr) f := by
  cases src3 with
  | regEr rc r =>
    obtain ⟨d, hd, -⟩ := h
    exact absurd (unmaskedOf_allOnes d) hd
  | reg | mem | bcst => exact h

theorem evexFnmsub_eq_fault {o : FmaOrder} {n : Nat} (hn : 0 < n) {seg : Option Seg} {dest src2 : BitVec 5}
    {k : WriteMask} {src3 : EvexOperandEr} {s : State} {f : Fault}
    (h : evexFnmsub defaultConfiguration o n seg dest src2 k src3 s = .fault f) :
    f.NotSimd ∨ s.SimdFaulted (mxcsrMasks s.mxcsr) f := by
  unfold evexFnmsub at h
  split at h
  next hcheck =>
    cases h
    exact .inl (notSimd_of_ud_or_nm (ud_or_nm_of_evexCheck hcheck))
  next =>
    exact (andThen_commit_eq_fault (evexOperand3_spec s seg hn ..)
      (fun _ => List.forall_mem_map.mpr fun _ _ => computeLane_unmaskedDetected) h).imp_right simdFaulted_of_evexMasks

/-- A form ends in a fault of its checks or of its memory operand, or in that of an exception unmasked in MXCSR. -/
theorem exec_eq_fault {i : Instr} {s : State} {f : Fault} (h : exec i s = .fault f) :
    f.NotSimd ∨ s.SimdFaulted (mxcsrMasks s.mxcsr) f := by
  cases i using forms_cases with
  | vex => exact vexFnmsub_eq_fault (exec_vexInstr .. ▸ h)
  | evex _ l => exact evexFnmsub_eq_fault (lanesOf_pos l) (exec_evexInstr .. ▸ h)
  | evex512 => exact evexFnmsub_eq_fault (by decide) (exec_evexInstr512 .. ▸ h)

/-- Settles O21: at the only fault that changes anything, MXCSR is `State.faultMxcsr`. -/
theorem faultLeavesState : Obligations.FaultLeavesState := by
  intro i s f h
  obtain hf | ⟨d, -, rfl⟩ := exec_eq_fault h
  · rw [atFault_of_notSimd hf]
    exact ⟨rfl, rfl, rfl, rfl, rfl, rfl, rfl, fun _ _ hb => hb, fun _ => rfl⟩
  · rw [atFault_simdFault]
    exact ⟨rfl, rfl, rfl, rfl, rfl, rfl, faultMxcsr_control .., fun b hb => faultMxcsr_sticky _ _ _ hb,
      fun hf => (atFault_simdFault ..).symm.trans (atFault_of_notSimd hf)⟩

/-! ## With every exception masked -/

theorem notSimd_of_allMasked {s : State} {i : Instr} {f : Fault} (hs : s.AllMasked) (h : exec i s = .fault f) :
    f.NotSimd := by
  obtain hf | ⟨d, hd, -⟩ := exec_eq_fault h
  · exact hf
  · rw [hs] at hd
    exact absurd (unmaskedOf_allOnes d) hd

/-- Fetching raises #UD only, for an illegal encoding (30_encoding.md R81). -/
theorem fetchInstr_eq_fault {s : State} {f : Fault} (h : s.fetchInstr = .fault f) : f = .ud := by
  obtain hbytes | ⟨bs, -, hdecoded⟩ := andThen_eq_fault h
  · unfold State.fetchBytes at hbytes
    split_ifs at hbytes
  · cases hdec : decode s.params.mode bs with
    | illegal =>
      rw [hdec] at hdecoded
      cases hdecoded
      rfl
    | instr | outOfScope | truncated =>
      rw [hdec] at hdecoded
      cases hdecoded

theorem retire_ne_fault {s t : State} {f : Fault} : s.retire t ≠ .fault f := by
  rw [retire_eq]
  split <;> simp

/-- A step faults as the instruction it fetched, if the fetch did not. -/
theorem step_eq_fault {s : State} {f : Fault} (h : step s = .fault f) : f = .ud ∨ ∃ i, exec i s = .fault f := by
  obtain hfetch | ⟨i, -, hrest⟩ := andThen_eq_fault h
  · exact .inl (fetchInstr_eq_fault hfetch)
  obtain hexec | ⟨t, -, hretire⟩ := andThen_eq_fault hrest
  · exact .inr ⟨i, hexec⟩
  · exact absurd hretire retire_ne_fault

theorem step_notSimd_of_allMasked {s : State} {f : Fault} (hs : s.AllMasked) (h : step s = .fault f) : f.NotSimd := by
  obtain hf | ⟨i, hexec⟩ := step_eq_fault h
  · exact notSimd_of_ud_or_nm (.inl hf)
  · exact notSimd_of_allMasked hs hexec

/-- The masks lie in the part of MXCSR that no step and no run changes (10_state.md R27). -/
theorem mxcsrMasks_eq_of_control {m m' : BitVec 32} (h : m'.extractLsb' 6 26 = m.extractLsb' 6 26) :
    mxcsrMasks m' = mxcsrMasks m := by
  apply BitVec.eq_of_getLsbD_eq
  intro i hi
  have hbit := congrArg (BitVec.getLsbD · (1 + i)) h
  have hlt : 1 + i < 26 := by omega
  simpa [mxcsrMasks, hi, hlt, ← Nat.add_assoc] using hbit

theorem State.SameLaunch.allMasked {s t : State} (h : s.SameLaunch t) (hs : s.AllMasked) : t.AllMasked :=
  (mxcsrMasks_eq_of_control h.control).trans hs

/-- Settles O18: no fault of a step is that of an unmasked exception, and a run keeps the masks. -/
theorem maskedRunNeverXm : Obligations.MaskedRunNeverXm := by
  have hnever : ∀ s m, s.AllMasked → step s ≠ .fault (.xm m) ∧ step s ≠ .fault (.udSimd m) := fun s m hs =>
    ⟨fun h => (step_notSimd_of_allMasked hs h m).1 rfl, fun h => (step_notSimd_of_allMasked hs h m).2 rfl⟩
  refine ⟨fun s t hs h => (step_sameLaunch h).allMasked hs, hnever, fun s t hs hrun m => hnever t m ?_⟩
  exact (hrun.rel State.SameLaunch.refl State.SameLaunch.trans step_sameLaunch).allMasked hs

/-! ## The forms up to the commit

A form that is enabled and whose operand is read commits one result for each element. -/

/-- Element `j` of a VEX form as a statement names it (R130, step 3). -/
def State.vexResult (s : State) (o : FmaOrder) (seg : Option Seg) (dest src2 : BitVec 4) (src3 : VexOperand)
    (j : Nat) : LaneResult :=
  let xyz := roles o (lane (s.readV (vexReg dest)) j) (lane (s.readV (vexReg src2)) j)
    (s.vexElem3 seg (vexLength seg src3.length) j src3)
  s.fnmsub (roundingOf (mxcsrRc s.mxcsr)) (mxcsrMasks s.mxcsr) j xyz.1 xyz.2.1 xyz.2.2

/-- Element `j` of an EVEX form of `n` elements as a statement names it, were it computed (R140, step 3). -/
def State.evexResult (s : State) (o : FmaOrder) (n : Nat) (seg : Option Seg) (dest src2 : BitVec 5) (src3 : EvexOperandEr)
    (j : Nat) : LaneResult :=
  let xyz := roles o (lane (s.readV dest) j) (lane (s.readV src2) j)
    (s.evexElem3 seg n (evexLength seg src3.length) j src3)
  s.fnmsub (s.evexRounding src3) (s.evexMasks src3) j xyz.1 xyz.2.1 xyz.2.2

/-- Element `j` of an EVEX form under its write mask (R141, R142). -/
def State.evexMaskedResult (s : State) (o : FmaOrder) (n : Nat) (seg : Option Seg) (dest src2 : BitVec 5) (k : WriteMask)
    (src3 : EvexOperandEr) : Nat → LaneResult :=
  maskedLane (fun j => k.aaa = 0 ∨ (s.readK k.aaa).getLsbD j = true) (s.evexResult o n seg dest src2 src3)
    fun j => if k.z then 0 else lane (s.readV dest) j

section MaskedLane

variable {act : Nat → Prop} [DecidablePred act] {e : Nat → LaneResult} {kept : Nat → Elem} {j : Nat}

theorem maskedLane_value : (maskedLane act e kept j).value = if act j then (e j).value else kept j :=
  apply_ite LaneResult.value ..

theorem maskedLane_flags : (maskedLane act e kept j).flags = if act j then (e j).flags else 0 :=
  apply_ite LaneResult.flags ..

theorem maskedLane_unmasked_iff : (maskedLane act e kept j).unmasked = true ↔ act j ∧ (e j).unmasked = true := by
  unfold maskedLane
  split <;> simp [*]

end MaskedLane

section Commit

variable {s : State} {o : FmaOrder} {n : Nat} {seg : Option Seg}

theorem vexFnmsub_eq_commit {dest src2 : BitVec 4} {src3 : VexOperand} (hn : n ≤ 8) (hready : s.VexReady)
    (h3 : s.VexOperandReady seg n (vexLength seg src3.length) src3) :
    vexFnmsub defaultConfiguration o n seg dest src2 src3 s = s.commit (vexReg dest) (mxcsrMasks s.mxcsr) false
      ((List.range n).map (s.vexResult o seg dest src2 src3)) (vexLength seg src3.length) := by
  obtain ⟨vc, hvc, hlanes⟩ := vexOperand3_of_ready hn h3
  rw [vexFnmsub, vexCheck_eq_none.mpr hready]
  simp only [hvc, andThen_next]
  rw [List.map_congr_left fun j hj => ?_]
  simp only [State.computeLane, hlanes j (List.mem_range.mp hj), if_true]
  rfl

theorem evexFnmsub_eq_commit {dest src2 : BitVec 5} {k : WriteMask} {src3 : EvexOperandEr} (hn : n ≤ 8)
    (hready : s.EvexReady n) (hk : k.wf = true) (h3 : s.EvexOperandReady seg n (evexLength seg src3.length) k src3) :
    evexFnmsub defaultConfiguration o n seg dest src2 k src3 s =
      s.commit dest (s.evexMasks src3) (embeddedRounding src3).isSome
        ((List.range n).map (s.evexMaskedResult o n seg dest src2 k src3)) (evexLength seg src3.length) := by
  obtain ⟨vc, hvc, hlanes⟩ := evexOperand3_of_ready hn h3
  have hact : ∀ j, s.laneActive k j = true ↔ k.aaa = 0 ∨ (s.readK k.aaa).getLsbD j = true := fun j => by
    simp [State.laneActive]
  rw [evexFnmsub, evexCheck_eq_none.mpr ⟨hready, hk⟩]
  simp only [hvc, andThen_next]
  rw [List.map_congr_left fun j hj => ?_]
  simp only [State.computeLane, State.evexMaskedResult, maskedLane, hact, hlanes j (List.mem_range.mp hj)]
  rfl

/-! ## Completion and the fault of a commit -/

/-- The register, `pc` and frame of a completed form, whether or not it sets flags. -/
theorem completed_completedTo {dest : BitVec 5} {suppress : Bool} {len : Nat} (hn : n ≤ 8) (r : Nat → LaneResult) :
    s.CompletedTo (s.completed dest suppress ((List.range n).map r) len) dest n len fun j => (r j).value := by
  refine ⟨fun j hj => ?_, fun b hb => completed_readV_dest_upper (by simpa using hb), nextPc_toNat s len,
    fun q hq => completed_readV_other _ _ _ _ _ hq, rfl, rfl, rfl, rfl, rfl, rfl⟩
  rw [completed_readV_dest, List.map_map, lane_joinLanes_map hn hj]
  rfl

/-- The three 512-bit forms at once: with every exception masked the commit completes, and with the flags suppressed it
leaves MXCSR as it was (R152, R165). -/
theorem exec_embeddedRounding {dest src2 : BitVec 5} {k : WriteMask} (o : FmaOrder) (rc : BitVec 2) (r : BitVec 5)
    (hready : s.EvexReady 8) (hk : k.wf = true) :
    let act := fun j => k.aaa = 0 ∨ (s.readK k.aaa).getLsbD j = true
    let e := fun j =>
      let xyz := roles o (lane (s.readV dest) j) (lane (s.readV src2) j) (lane (s.readV r) j)
      s.fnmsub (roundingOf rc) (BitVec.allOnes 6) j xyz.1 xyz.2.1 xyz.2.2
    ∃ t, exec (evexInstr512 o seg dest src2 k (.regEr rc r)) s = .next t ∧ t.mxcsr = s.mxcsr ∧
      s.CompletedTo t dest 8 (evexLength seg 0)
        fun j => if act j then (e j).value else if k.z then 0 else lane (s.readV dest) j := by
  intro act e
  have hmasked : ∀ j, (e j).unmasked = false := fun j => fnmsub64_masked ..
  have hquiet : ∀ j, ¬(s.evexMaskedResult o 8 seg dest src2 k (.regEr rc r) j).unmasked = true := fun j hu =>
    ne_true_of_eq_false (hmasked j) (maskedLane_unmasked_iff.mp hu).2
  have hnone : ¬((List.range 8).map (s.evexMaskedResult o 8 seg dest src2 k (.regEr rc r))).any LaneResult.unmasked =
      true := by
    simp [hquiet]
  have hvalue : (fun j => (s.evexMaskedResult o 8 seg dest src2 k (.regEr rc r) j).value) =
      fun j => if act j then (e j).value else if k.z then 0 else lane (s.readV dest) j := funext fun _ => maskedLane_value
  refine ⟨s.completed dest true _ (evexLength seg 0), ?_, rfl, hvalue ▸ completed_completedTo le_rfl _⟩
  rw [exec_evexInstr512, evexFnmsub_eq_commit (src3 := .regEr rc r) le_rfl hready hk trivial, State.commit, if_neg hnone]
  rfl

/-- An unmasked exception in an element is raised, with the flags of all elements detected (R162, R163). -/
theorem commit_simdFault {dest : BitVec 5} {masks : BitVec 6} {suppress : Bool} {len : Nat} {r : Nat → LaneResult}
    (hr : ∀ j, (r j).UnmaskedDetected masks) (hu : ∃ j < n, (r j).unmasked = true) :
    ∃ m, s.commit dest masks suppress ((List.range n).map r) len =
        .fault (if s.sys.cr4.getLsbD 10 then .xm m else .udSimd m) ∧
      FaultFlagsAdded s.mxcsr m masks (((List.range n).map fun j => (r j).flags).foldr (· ||| ·) 0) := by
  obtain ⟨j, hj, hunmasked⟩ := hu
  have hmem : r j ∈ (List.range n).map r := List.mem_map_of_mem (List.mem_range.mpr hj)
  have hflags : laneFlags ((List.range n).map r) = ((List.range n).map fun j => (r j).flags).foldr (· ||| ·) 0 := by
    rw [laneFlags, unionFlags, List.map_map]
    rfl
  rw [State.commit, if_pos (List.any_eq_true.mpr ⟨r j, hmem, hunmasked⟩), simdFault_eq, ← hflags]
  exact ⟨_, rfl, faultMxcsr_flagsAdded s (unmaskedOf_laneFlags_ne_zero hmem (hr j hunmasked))⟩

theorem evexMaskedResult_unmaskedDetected {dest src2 : BitVec 5} {k : WriteMask} {src3 : EvexOperandEr} (j : Nat) :
    (s.evexMaskedResult o n seg dest src2 k src3 j).UnmaskedDetected (s.evexMasks src3) := by
  intro hu
  obtain ⟨hact, he⟩ := maskedLane_unmasked_iff.mp hu
  rw [State.evexMaskedResult, maskedLane_flags, if_pos hact]
  exact fnmsub_unmaskedDetected he

/-- An unmasked exception in an EVEX form of `n` elements: without embedded rounding the rounding mode and the masks are
MXCSR's (R140, step 3), and a masked-off element has no flag and no exception (R142). -/
theorem evexFnmsub_simdFault {dest src2 : BitVec 5} {k : WriteMask} {src3 : EvexOperandEr} (hn : n ≤ 8)
    (hready : s.EvexReady n) (hk : k.wf = true) (her : embeddedRounding src3 = none) :
    let act := fun j => k.aaa = 0 ∨ (s.readK k.aaa).getLsbD j = true
    let e := fun j =>
      let xyz := roles o (lane (s.readV dest) j) (lane (s.readV src2) j)
        (s.evexElem3 seg n (evexLength seg src3.length) j src3)
      s.fnmsub (roundingOf (mxcsrRc s.mxcsr)) (mxcsrMasks s.mxcsr) j xyz.1 xyz.2.1 xyz.2.2
    s.EvexOperandReady seg n (evexLength seg src3.length) k src3 → (∃ j < n, act j ∧ (e j).unmasked = true) →
    ∃ m, evexFnmsub defaultConfiguration o n seg dest src2 k src3 s =
        .fault (if s.sys.cr4.getLsbD 10 then .xm m else .udSimd m) ∧
      FaultFlagsAdded s.mxcsr m (mxcsrMasks s.mxcsr)
        (((List.range n).map fun j => if act j then (e j).flags else 0).foldr (· ||| ·) 0) := by
  intro act e h3 hu
  have hmasks : s.evexMasks src3 = mxcsrMasks s.mxcsr := by rw [State.evexMasks, her]; rfl
  have hrounding : s.evexRounding src3 = roundingOf (mxcsrRc s.mxcsr) := by rw [State.evexRounding, her]; rfl
  have he : s.evexResult o n seg dest src2 src3 = e := by
    funext j
    rw [State.evexResult, hmasks, hrounding]
  have hdetected := evexMaskedResult_unmaskedDetected (s := s) (o := o) (n := n) (seg := seg) (dest := dest)
    (src2 := src2) (k := k) (src3 := src3)
  rw [evexFnmsub_eq_commit hn hready hk h3]
  rw [State.evexMaskedResult, hmasks, he] at hdetected ⊢
  have hflags : (fun j => (maskedLane act e (fun j => if k.z then 0 else lane (s.readV dest) j) j).flags) =
      fun j => if act j then (e j).flags else 0 := funext fun _ => maskedLane_flags
  rw [← hflags]
  exact commit_simdFault hdetected (by simpa only [maskedLane_unmasked_iff] using hu)

end Commit

/-! ## The obligations on the commit -/

/-- Settles O34: the order of the form says which operands are the factors (R101). -/
theorem embeddedRounding_holds : Obligations.EmbeddedRounding := by
  intro s seg dest src2 k rc r hready hk act
  exact ⟨exec_embeddedRounding .o132 rc r hready hk, exec_embeddedRounding .o213 rc r hready hk,
    exec_embeddedRounding .o231 rc r hready hk⟩

/-- Settles O35: every element is computed, and the commit raises the fault. -/
theorem vexSimdFault : Obligations.VexSimdFault := by
  intro s o l seg dest src2 src3 hready n len e h3 hu
  rw [exec_vexInstr, vexFnmsub_eq_commit (lanesOf_le l) hready h3]
  exact commit_simdFault (r := e) (fun _ => fnmsub_unmaskedDetected) hu

/-- Settles O36: the 128-bit and 256-bit forms have no embedded rounding, and it is shut out for the 512-bit forms. -/
theorem evexSimdFault : Obligations.EvexSimdFault := by
  intro s o seg dest src2 k hk act
  constructor
  · intro l n src3 hready
    rw [← evexOperandEr_length, exec_evexInstr]
    exact evexFnmsub_simdFault (lanesOf_le l) hready hk (by cases src3 <;> rfl)
  · intro src3 hready e h3 her
    rw [exec_evexInstr512]
    refine evexFnmsub_simdFault le_rfl hready hk ?_ h3
    cases src3 with
    | regEr rc r => exact absurd rfl (her rc r)
    | reg | mem | bcst => rfl

end Sys2Proof.Machine
end

section
/-! Reset, INIT and the modes after them (70_reset_and_hazards.md): in real-address and virtual-8086 mode no form executes
(R190), since `Enabled.avx` asks for protected or 64-bit mode (60_exceptions.md R166), and a placed program text, which boots
the machine first (R191, R192), runs from its first instruction. -/

namespace Sys2Proof.Machine

open Sys2Proof

/-! ## Where AVX is not enabled -/

theorem enabledAvx_of_isReal {s : State} (h : s.params.mode.isReal = true) : s.enabledAvx = false := by
  refine (enabledAvx_eq_false_iff s).mpr (.inl ?_)
  cases hm : s.params.mode with
  | realAddress | virtual8086 => exact ⟨nofun, nofun⟩
  | prot32 | long64 =>
    rw [hm] at h
    cases h

theorem vexCheck_of_not_enabledAvx {s : State} (h : s.enabledAvx = false) : s.vexCheck = some .ud := by
  simp [State.vexCheck, State.enabled, h]

/-- Whatever the mask: a mask that is not well formed is #UD as well (42_vfnmsub_evex.md R140). -/
theorem evexCheck_of_not_enabledAvx {s : State} (h : s.enabledAvx = false) (n : Nat) (k : WriteMask) :
    s.evexCheck n k = some .ud := by
  simp [State.evexCheck, State.enabled, h]

/-- The EVEX forms ask for AVX as well (60_exceptions.md R166, R167). -/
theorem exec_of_not_enabledAvx {s : State} (h : s.enabledAvx = false) (i : Instr) : exec i s = .fault .ud := by
  cases i using forms_cases with
  | vex =>
    rw [exec_vexInstr]
    exact vexFnmsub_of_check (vexCheck_of_not_enabledAvx h)
  | evex =>
    rw [exec_evexInstr]
    exact evexFnmsub_of_check (evexCheck_of_not_enabledAvx h ..)
  | evex512 =>
    rw [exec_evexInstr512]
    exact evexFnmsub_of_check (evexCheck_of_not_enabledAvx h ..)

theorem exec_of_isReal {s : State} (h : s.params.mode.isReal = true) (i : Instr) : exec i s = .fault .ud :=
  exec_of_not_enabledAvx (enabledAvx_of_isReal h) i

/-! ## Rows in real-address and virtual-8086 mode -/

section Rows

variable {m : CpuMode} {o : FmaOrder} {b1 b2 p0 p1 p2 op modrm : Byte} (seg : Option Seg) (t : List Byte)

/-- Only `Prot32` puts a row out of scope, for the registers it names (30_encoding.md R83). -/
theorem decodeVex_ne_outOfScope (hm : m ≠ .prot32) (h : VexRow m b1 b2 op o) (why : OutOfScope) :
    decodeVex m seg (b1 :: b2 :: op :: modrm :: t) ≠ .outOfScope why := by
  have hles : ¬(m ≠ .long64 ∧ b1.field 6 2 ≠ 0b11#2) := fun hn => hn.2 (h.notLes hn.1)
  have hprot : ¬(m = .prot32 ∧ (b1.inverted 5 = true ∨ b2.inverted 6 = true)) := fun hn => hm hn.1
  simp only [decodeVex, if_neg hles, h.map, h.w, h.pp, h.order, if_neg hprot]
  cases decodeModRm (b1.inverted 6) (b1.inverted 5) modrm t with
  | none => exact nofun
  | some operand =>
    by_cases hreal : m.isReal = true ∧ (b1.inverted 5 = true ∨ b2.inverted 6 = true)
    · simp [hreal]
    · cases operand <;> simp [hreal]

/-- As `decodeVex_ne_outOfScope`; R81 makes a row illegal, never out of scope. -/
theorem decodeEvex_ne_outOfScope (hm : m ≠ .prot32) (h : EvexRow m p0 p1 op o) (why : OutOfScope) :
    decodeEvex m seg (p0 :: p1 :: p2 :: op :: modrm :: t) ≠ .outOfScope why := by
  have hbound : ¬(m ≠ .long64 ∧ p0.field 6 2 ≠ 0b11#2) := fun hn => hn.2 (h.notBound hn.1)
  have hprot : ¬(m = .prot32 ∧
      (p0.inverted 5 = true ∨ p0.inverted 4 = true ∨ p1.inverted 6 = true ∨ p2.inverted 3 = true)) := fun hn => hm hn.1
  simp only [decodeEvex, if_neg hbound, h.map, h.w, h.pp, h.order, if_neg hprot]
  cases decodeModRm (p0.inverted 6) (p0.inverted 5) modrm t with
  | none => exact nofun
  | some operand =>
    cases evexIllegal p0 p1 p2 (modrm.field 6 2 == 0b11#2) with
    | some why => exact nofun
    | none =>
      by_cases hreal : m.isReal = true ∧
          (p0.inverted 5 = true ∨ p0.inverted 4 = true ∨ p1.inverted 6 = true ∨ p2.inverted 3 = true) <;> simp [hreal]

end Rows

/-- An instruction raises #UD when it executes, an illegal encoding when it is decoded. -/
theorem step_of_isReal {s : State} (hreal : s.params.mode.isReal = true) (hpc : s.PcInRange)
    (hend : s.text.base.toNat + s.text.bytes.length ≤ addressSpace s.params.mode) (hbase : s.text.base.toNat ≤ s.pc.toNat)
    {bs : List Byte} (hbs : s.text.bytes.drop (s.pc.toNat - s.text.base.toNat) = bs)
    (htrunc : decode s.params.mode bs ≠ .truncated) (hscope : ∀ why, decode s.params.mode bs ≠ .outOfScope why) :
    step s = .fault .ud := by
  have hlt : s.pc.toNat < s.text.base.toNat + s.text.bytes.length := by
    by_contra hge
    rw [← hbs, List.drop_of_length_le (by omega)] at htrunc
    exact htrunc rfl
  rw [step_of_inside hpc hend hbase hlt, hbs]
  cases hdec : decode s.params.mode bs with
  | instr i => exact congrArg (andThen · s.retire) (exec_of_isReal hreal i)
  | illegal => rfl
  | outOfScope why => exact absurd hdec (hscope why)
  | truncated => exact absurd hdec htrunc

/-- Settles O59: a whole row is neither truncated nor out of scope in these modes. -/
theorem realModeUndefined : Obligations.RealModeUndefined := by
  intro s hmode hpc hend hbase bs htrunc
  have hreal : s.params.mode.isReal = true := by obtain hm | hm := hmode <;> rw [hm] <;> rfl
  have hprot : s.params.mode ≠ .prot32 := by obtain hm | hm := hmode <;> rw [hm] <;> exact nofun
  refine ⟨fun b1 b2 op modrm rest hbs hles hmap hw hpp hop => ?_,
    fun p0 p1 p2 op modrm rest hbs hbound hmap hw hpp hop => ?_⟩
  · obtain ⟨o, ho⟩ := orderOf_isSome hop
    exact step_of_isReal hreal hpc hend hbase hbs (hbs ▸ htrunc) fun why hdec =>
      decodeVex_ne_outOfScope none rest hprot ⟨fun _ => hles, hmap, hw, hpp, ho⟩ why ((decode_vex ..).symm.trans hdec)
  · obtain ⟨o, ho⟩ := orderOf_isSome hop
    exact step_of_isReal hreal hpc hend hbase hbs (hbs ▸ htrunc) fun why hdec =>
      decodeEvex_ne_outOfScope none rest hprot ⟨fun _ => hbound, hmap, hw, hpp, ho⟩ why ((decode_evex ..).symm.trans hdec)

/-! ## After reset and after INIT -/

/-- Settles O2: reset leaves the machine in real-address mode. -/
theorem resetExecutesNothing : Obligations.ResetExecutesNothing :=
  exec_of_isReal (s := State.reset) rfl

/-- Settles O60: so does INIT. -/
theorem initKeeps : Obligations.InitKeeps :=
  fun s => ⟨fun _ => rfl, fun _ => rfl, rfl, exec_of_isReal (s := s.afterInit) rfl⟩

/-! ## The first instruction of a placed text -/

theorem decodeTableWord_eq_some {nbits w : Nat} {i : Instr} (h : decodeTableWord nbits w = some i) :
    decode .long64 (wordBytes nbits w) = .instr i := by
  unfold decodeTableWord at h
  split at h
  case h_1 hdec =>
    cases h
    exact hdec
  case h_2 => cases h

/-- Without single-stepping and breakpoints an instruction's outcome is the step's (60_exceptions.md R175). -/
theorem andThen_retire {s : State} (h : s.enabled.nodebug = true) (out : Host.Outcome State Fault Refusal) :
    andThen out s.retire = out := by
  cases out with
  | next t => exact if_pos h
  | fault | refused => rfl

/-- In a mode in which no form executes, a text is placed in the booted machine (70_reset_and_hazards.md R191, R192). -/
theorem placeText_of_isReal {s : State} (h : s.params.mode.isReal = true) (bs : List Byte) :
    s.placeText bs = { s.boot with text := { base := s.pc, bytes := bs } } := by
  have hmode : ¬(s.params.mode = .long64 ∨ s.params.mode = .prot32) := by
    rintro (hm | hm) <;> rw [hm] at h <;> cases h
  have hbase : BitVec.ofNat 64 s.boot.pcNat = s.pc := by
    rw [pcNat_of_inRange (s := s.boot) s.pc.isLt, BitVec.ofNat_toNat]
    exact BitVec.setWidth_eq _
  simp only [State.placeText, if_neg hmode, hbase]

/-- The text that stands at `pc` of a 64-bit machine without debugging runs from its first instruction (R193). -/
theorem step_of_textAtPc {s : State} (hmode : s.params.mode = .long64) (hbase : s.text.base = s.pc)
    (hend : s.pc.toNat + s.text.bytes.length ≤ 2 ^ 64) (hdebug : s.enabled.nodebug = true) {i : Instr}
    (hdec : decode .long64 s.text.bytes = .instr i) : step s = exec i s := by
  have hpc : s.PcInRange := by
    rw [State.PcInRange, hmode]
    exact s.pc.isLt
  have hfetch : s.fetchInstr = .next i := by
    rw [fetchInstr_eq_next hpc, hbase, hmode, Nat.sub_self, List.drop_zero]
    exact ⟨hend, le_rfl, hdec⟩
  rw [step_of_fetchInstr hfetch, andThen_retire hdebug]

/-- What booting changes bears on neither `pc` nor debugging. -/
theorem step_placeText_of_isReal {s : State} (hreal : s.params.mode.isReal = true) {bs : List Byte}
    (hend : s.pc.toNat + bs.length ≤ 2 ^ 64) (hdebug : s.enabled.nodebug = true) {i : Instr}
    (hdec : decode .long64 bs = .instr i) : step (s.placeText bs) = exec i (s.placeText bs) := by
  rw [placeText_of_isReal hreal]
  exact step_of_textAtPc (s := { s.boot with text := { base := s.pc, bytes := bs } }) rfl rfl hend hdebug hdec

/-- Settles O4: the word is at most twelve bytes at FFFFFFF0H, and reset enables no debugging. -/
theorem placedWordRunsAfterReset : Obligations.PlacedWordRunsAfterReset := by
  intro nbits w i h
  have hlength : (wordBytes nbits w).length = maxLength := by simp [wordBytes]
  have hend : State.reset.pc.toNat + (wordBytes nbits w).length ≤ 2 ^ 64 := by
    rw [hlength]
    decide
  have hdebug : State.reset.enabled.nodebug = true := by decide
  exact step_placeText_of_isReal rfl hend hdebug (decodeTableWord_eq_some h)

end Sys2Proof.Machine
end

section
/-! Round trip (30_encoding.md R61 to R76): the override of an encoded instruction is its only lead byte, and the row behind it
is read back. -/

namespace Sys2Proof

/-- One override is no reason to refuse (R83) or reject (R81 line 1) what stands behind it. -/
theorem leadByte_checks_segment (seg : Option Seg) :
    leadOutOfScope (seg.toList.map .segment) = none ∧ leadIllegal (seg.toList.map .segment) = false := by
  cases seg with
  | none => decide
  | some s => cases s <;> decide

/-- An override before a row names the segment of that row's operand (R61). -/
theorem decode_segBytes {m : CpuMode} {seg : Option Seg} {b : Byte} {t : List Byte} {i : Instr}
    (hlead : leadByte m b = none) (hbody : decodeBody m seg (b :: t) = .instr i) :
    decode m (segBytes seg ++ b :: t) = .instr i := by
  obtain ⟨hscope, hlegal⟩ := leadByte_checks_segment seg
  simp [decode, splitLead_segBytes hlead, leadSegment_segment, hscope, hlegal, hbody]

/-- Settles O6, by the layout of an encoded instruction: its override, then a row that is read back. -/
theorem decodeEncode : Obligations.DecodeEncode := by
  intro m i rest hwf
  obtain ⟨seg, b, t, hbytes, hrow, hbody⟩ := encode_layout hwf
  rw [hbytes, List.append_assoc]
  exact decode_segBytes (leadByte_row hrow m) (hbody rest)

end Sys2Proof
end
